-- ==== Sys2Proof/Word.lean ====
section
/-! DEFINITION. The word types of the FX Core (00_scope.md R6, R8, R9): 32-bit registers and instruction words, 16-bit
delay samples, the 64-bit accumulator, 15-bit delay addresses. Bit 0 is the least significant bit of every value. -/

namespace Sys2Proof

/-- A core register, MREG, SFR or instruction word: 32 bits (R6). -/
abbrev Word := BitVec 32

/-- A delay RAM word, a 16-bit immediate, FLAGS: 16 bits (R6). -/
abbrev Half := BitVec 16

/-- The accumulator ACC64: 64 bits (R38). -/
abbrev Long := BitVec 64

/-- A delay address, relative or physical: 15 bits (R6, R80). -/
abbrev DAddr := BitVec 15

end Sys2Proof
end

