-- ==== Sys2Proof/Syntax.lean ====
section
/-! DEFINITION. The instructions of the FX Core: one constructor for each of the 72 rows of spec/opcode_table.json
(30_encoding.md R139), in the table's order, with the operands of R163 as fields. A constructor's arguments stand in the
order of the encoding's fields, R field before M field (R137). -/

namespace Sys2Proof

/-- A core register (10_state.md R31). A destination of class CREGNA must not be `flags` (R125); WellFormed checks that. -/
inductive CReg where
  /-- R0 to R15, codes 0 to 15. -/
  | r (n : Fin 16)
  /-- ACC32, code 16. -/
  | acc32
  /-- FLAGS, code 17, read only. -/
  | flags
deriving DecidableEq, Repr

/-- R15, also called PARAM0 (R33). -/
abbrev CReg.param0 : CReg := .r 15

/-- The 49 numbered special function registers (10_state.md R44). -/
inductive Sfr where
  /-- IN0 to IN3, numbers 0 to 3. -/
  | adc (n : Fin 4)
  /-- OUT0 to OUT3, numbers 4 to 7. -/
  | out (n : Fin 4)
  /-- PIN, number 8. -/
  | pin
  /-- SWITCH, number 9. -/
  | switch
  /-- POT0_K to POT5_K, numbers 10 to 15. -/
  | potK (n : Fin 6)
  /-- POT0 to POT5, numbers 16 to 21. -/
  | pot (n : Fin 6)
  /-- POT0_SMTH to POT5_SMTH, numbers 22 to 27. -/
  | potSmth (n : Fin 6)
  /-- LFO0_F to LFO3_F, numbers 28 to 31. -/
  | lfoF (n : Fin 4)
  /-- RAMP0_F and RAMP1_F, numbers 32 and 33. -/
  | rampF (n : Fin 2)
  /-- LFO0_S to LFO3_S, numbers 34, 36, 38, 40. -/
  | lfoSin (n : Fin 4)
  /-- LFO0_C to LFO3_C, numbers 35, 37, 39, 41. -/
  | lfoCos (n : Fin 4)
  /-- RAMP0_R and RAMP1_R, numbers 42 and 43. -/
  | rampOut (n : Fin 2)
  /-- MAXTEMPO, number 44. -/
  | maxTempo
  /-- TAPTEMPO, number 45. -/
  | tapTempo
  /-- SAMPLECNT, number 46. -/
  | sampleCnt
  /-- NOISE, number 47. -/
  | noise
  /-- BOOTSTAT, number 48. -/
  | bootStat
deriving DecidableEq, Repr

/-- CHR's `w` field (R134): sine (0) or cosine (1). -/
inductive Wave where
  | sin
  | cos
deriving DecidableEq, Repr

/-- PITCH's `blklen` field (R135): 512 (00), 1024 (01), 2048 (10) or 4096 (11). -/
inductive BlockLen where
  | l512
  | l1024
  | l2048
  | l4096
deriving DecidableEq, Repr

/-- The 72 instructions (R139). -/
inductive Instr where
  -- math operations, part 1 (40_math_arith.md)
  | abs (c : CReg)
  | clracc64
  | addi (c : CReg) (imm : Half)
  | add (x y : CReg)
  | adds (x y : CReg)
  | addsi (c : CReg) (imm : Half)
  | sub (x y : CReg)
  | subs (x y : CReg)
  | sl (c : CReg) (n : BitVec 5)
  | slr (x y : CReg)
  | sls (c : CReg) (n : BitVec 5)
  | slsr (x y : CReg)
  | sr (c : CReg) (n : BitVec 5)
  | srr (x y : CReg)
  | sra (c : CReg) (n : BitVec 5)
  | srar (x y : CReg)
  -- math operations, part 2 (41_math_mac.md)
  | macrr (x y : CReg)
  | macri (c : CReg) (imm : Half)
  | macrd (c : CReg) (addr : DAddr)
  | macid (k : BitVec 8) (addr : DAddr)
  | machrr (x y : CReg)
  | machri (c : CReg) (imm : Half)
  | machrd (c : CReg) (addr : DAddr)
  | machid (k : BitVec 8) (addr : DAddr)
  | multrr (x y : CReg)
  | multri (c : CReg) (imm : Half)
  | neg (c : CReg)
  | log2 (c : CReg)
  | exp2 (c : CReg)
  -- copy operations (42_copy.md)
  | cpyCc (x y : CReg)
  | cpyCm (c : CReg) (m : Fin 128)
  | cpyCs (c : CReg) (n : Sfr)
  | cpyMc (c : CReg) (m : Fin 128)
  | cpySc (c : CReg) (n : Sfr)
  | cpyCmx (x y : CReg)
  -- load/store operations (43_loadstore.md)
  | rdacc64u (c : CReg)
  | rdacc64l (c : CReg)
  | ldacc64u (c : CReg)
  | ldacc64l (c : CReg)
  | rddel (c : CReg) (addr : DAddr)
  | wrdel (c : CReg) (addr : DAddr)
  | rddelx (x y : CReg)
  | wrdelx (x y : CReg)
  | rddirx (x y : CReg)
  | wrdirx (x y : CReg)
  | sat64 (c : CReg)
  | wrdld (c : CReg) (imm : Half)
  -- logic operations (44_logic.md)
  | inv (c : CReg)
  | or (x y : CReg)
  | ori (c : CReg) (imm : Half)
  | and (x y : CReg)
  | andi (c : CReg) (imm : Half)
  | xor (x y : CReg)
  | xori (c : CReg) (imm : Half)
  -- jumps (45_jumps.md)
  | jgez (c : CReg) (offset : BitVec 12)
  | jneg (c : CReg) (offset : BitVec 12)
  | jnz (c : CReg) (offset : BitVec 12)
  | jz (c : CReg) (offset : BitVec 12)
  | jzc (c : CReg) (offset : BitVec 12)
  | jmp (offset : BitVec 12)
  -- extended operations (46_extended.md)
  | apa (k : BitVec 8) (addr : DAddr)
  | apb (k : BitVec 8) (addr : DAddr)
  | apra (c : CReg) (addr : DAddr)
  | aprb (c : CReg) (addr : DAddr)
  | aprra (x y : CReg)
  | aprrb (x y : CReg)
  | apma (c : CReg) (m : Fin 128)
  | apmb (c : CReg) (m : Fin 128)
  | chr (neg : Bool) (lfo : Fin 4) (w : Wave) (addr : DAddr)
  | pitch (xfade : Fin 4) (blklen : BlockLen) (ramp : Fin 2) (addr : DAddr)
  | set (c : CReg) (userbit : Fin 2) (bitnum : Fin 32)
  | interp (c : CReg) (addr : DAddr)
deriving DecidableEq, Repr

end Sys2Proof
end

