-- ==== Sys2Proof/WellFormed.lean ====
section
/-! DEFINITION. Which instructions the operand classes admit (30_encoding.md R138 step 5, R125, R142; 10_state.md R44-R46):
a CREGNA destination is not FLAGS, CPY_CS names a readable SFR, CPY_SC names a writable one. Every other operand is well
formed by its type. -/

namespace Sys2Proof

/-- The explicit CREGNA destination of an instruction, if it has one; the complete list of R37. -/
def Instr.dest : Instr → Option CReg
  | .cpyCc x _ | .cpyCmx x _ | .rddelx x _ | .rddirx x _ => some x
  | .cpyCm c _ => some c
  | .cpyCs c _ => some c
  | .rdacc64u c | .rdacc64l c | .sat64 c => some c
  | .rddel c _ => some c
  | .wrdld c _ => some c
  | .abs _ | .clracc64 | .addi _ _ | .add _ _ | .adds _ _ | .addsi _ _ | .sub _ _ | .subs _ _
  | .sl _ _ | .slr _ _ | .sls _ _ | .slsr _ _ | .sr _ _ | .srr _ _ | .sra _ _ | .srar _ _
  | .macrr _ _ | .macri _ _ | .macrd _ _ | .macid _ _ | .machrr _ _ | .machri _ _ | .machrd _ _ | .machid _ _
  | .multrr _ _ | .multri _ _ | .neg _ | .log2 _ | .exp2 _
  | .cpyMc _ _ | .cpySc _ _ | .ldacc64u _ | .ldacc64l _ | .wrdel _ _ | .wrdelx _ _ | .wrdirx _ _
  | .inv _ | .or _ _ | .ori _ _ | .and _ _ | .andi _ _ | .xor _ _ | .xori _ _
  | .jgez _ _ | .jneg _ _ | .jnz _ _ | .jz _ _ | .jzc _ _ | .jmp _
  | .apa _ _ | .apb _ _ | .apra _ _ | .aprb _ _ | .aprra _ _ | .aprrb _ _ | .apma _ _ | .apmb _ _
  | .chr _ _ _ _ | .pitch _ _ _ _ | .set _ _ _ | .interp _ _ => none

/-- Access R or R/W in the table of R44: every SFR but OUT0-OUT3. -/
def Sfr.readable : Sfr → Bool
  | .out _ => false
  | .adc _ | .pin | .switch | .potK _ | .pot _ | .potSmth _ | .lfoF _ | .rampF _ | .lfoSin _ | .lfoCos _ | .rampOut _
  | .maxTempo | .tapTempo | .sampleCnt | .noise | .bootStat => true

/-- Access W or R/W in the table of R44: OUT0-OUT3, POTn_K, LFOn_F, RAMPn_F, MAXTEMPO (R265). -/
def Sfr.writable : Sfr → Bool
  | .out _ | .potK _ | .lfoF _ | .rampF _ | .maxTempo => true
  | .adc _ | .pin | .switch | .pot _ | .potSmth _ | .lfoSin _ | .lfoCos _ | .rampOut _
  | .tapTempo | .sampleCnt | .noise | .bootStat => false

/-- The SFR access is one the table allows (R45, R46); true of an instruction that names no SFR. -/
def Instr.sfrOk : Instr → Bool
  | .cpyCs _ n => n.readable
  | .cpySc _ n => n.writable
  | .abs _ | .clracc64 | .addi _ _ | .add _ _ | .adds _ _ | .addsi _ _ | .sub _ _ | .subs _ _
  | .sl _ _ | .slr _ _ | .sls _ _ | .slsr _ _ | .sr _ _ | .srr _ _ | .sra _ _ | .srar _ _
  | .macrr _ _ | .macri _ _ | .macrd _ _ | .macid _ _ | .machrr _ _ | .machri _ _ | .machrd _ _ | .machid _ _
  | .multrr _ _ | .multri _ _ | .neg _ | .log2 _ | .exp2 _
  | .cpyCc _ _ | .cpyCm _ _ | .cpyMc _ _ | .cpyCmx _ _
  | .rdacc64u _ | .rdacc64l _ | .ldacc64u _ | .ldacc64l _ | .rddel _ _ | .wrdel _ _ | .rddelx _ _ | .wrdelx _ _
  | .rddirx _ _ | .wrdirx _ _ | .sat64 _ | .wrdld _ _
  | .inv _ | .or _ _ | .ori _ _ | .and _ _ | .andi _ _ | .xor _ _ | .xori _ _
  | .jgez _ _ | .jneg _ _ | .jnz _ _ | .jz _ _ | .jzc _ _ | .jmp _
  | .apa _ _ | .apb _ _ | .apra _ _ | .aprb _ _ | .aprra _ _ | .aprrb _ _ | .apma _ _ | .apmb _ _
  | .chr _ _ _ _ | .pitch _ _ _ _ | .set _ _ _ | .interp _ _ => true

/-- The operand checks of R138 step 5 that the types leave open. -/
def Instr.wf (i : Instr) : Bool := i.dest != some .flags && i.sfrOk

/-- `i` passes the operand checks of R138 step 5. -/
abbrev WellFormed (i : Instr) : Prop := i.wf = true

end Sys2Proof
end

