-- ==== Sys2Proof/Decode.lean ====
section
/-! DEFINITION. The instruction word (30_encoding.md R120-R145): the fields, the decoder of R138 with its order of checks
(60_exceptions.md R403), the opcode map R139 as data, and after them the encoder, written from the same encoding lines.
`w.extractLsb hi lo` is the spec's w[hi:lo] (R8), `a ++ b` its concatenation with a on top (R11). -/

namespace Sys2Proof

/-- Why a word decodes to no instruction: reasons 1 to 7 of 60_exceptions.md R402. -/
inductive Reject where
  /-- Bit 24, or a bit the encoding line shows as 0 and gives to no field, is 1 (R122, R141). -/
  | reservedBits
  /-- The I field holds one of the 56 unassigned values (R140). -/
  | illegalOpcode
  /-- A register field holds 18 to 31 (R142). -/
  | badCoreReg
  /-- A CREGNA field holds 17 (R142). -/
  | flagsAsDest
  /-- The SFR field holds 49 to 63 (R132). -/
  | badSfr
  /-- CPY_CS names OUT0-OUT3 (R45). -/
  | sfrNotReadable
  /-- CPY_SC names a read-only SFR (R46). -/
  | sfrNotWritable
deriving DecidableEq, Repr

/-- The I field, bits 31:25 (R121). -/
def iField (w : Word) : BitVec 7 := w.extractLsb 31 25

/-- The core register of a 5-bit code (R31); codes 18 to 31 name none (R36). -/
def coreReg (c : BitVec 5) : Except Reject CReg :=
  if h : c.toNat < 16 then .ok (.r ⟨c.toNat, h⟩)
  else if c = 16 then .ok .acc32
  else if c = 17 then .ok .flags
  else .error .badCoreReg

/-- A CREGNA position does not take FLAGS (R35, R142). -/
def notFlags (c : CReg) : Except Reject CReg :=
  if c = .flags then .error .flagsAsDest else .ok c

/-- The SFR of a number (the table of R44). -/
def Sfr.ofNat : Nat → Option Sfr
  | 0 => some (.adc 0)
  | 1 => some (.adc 1)
  | 2 => some (.adc 2)
  | 3 => some (.adc 3)
  | 4 => some (.out 0)
  | 5 => some (.out 1)
  | 6 => some (.out 2)
  | 7 => some (.out 3)
  | 8 => some .pin
  | 9 => some .switch
  | 10 => some (.potK 0)
  | 11 => some (.potK 1)
  | 12 => some (.potK 2)
  | 13 => some (.potK 3)
  | 14 => some (.potK 4)
  | 15 => some (.potK 5)
  | 16 => some (.pot 0)
  | 17 => some (.pot 1)
  | 18 => some (.pot 2)
  | 19 => some (.pot 3)
  | 20 => some (.pot 4)
  | 21 => some (.pot 5)
  | 22 => some (.potSmth 0)
  | 23 => some (.potSmth 1)
  | 24 => some (.potSmth 2)
  | 25 => some (.potSmth 3)
  | 26 => some (.potSmth 4)
  | 27 => some (.potSmth 5)
  | 28 => some (.lfoF 0)
  | 29 => some (.lfoF 1)
  | 30 => some (.lfoF 2)
  | 31 => some (.lfoF 3)
  | 32 => some (.rampF 0)
  | 33 => some (.rampF 1)
  | 34 => some (.lfoSin 0)
  | 35 => some (.lfoCos 0)
  | 36 => some (.lfoSin 1)
  | 37 => some (.lfoCos 1)
  | 38 => some (.lfoSin 2)
  | 39 => some (.lfoCos 2)
  | 40 => some (.lfoSin 3)
  | 41 => some (.lfoCos 3)
  | 42 => some (.rampOut 0)
  | 43 => some (.rampOut 1)
  | 44 => some .maxTempo
  | 45 => some .tapTempo
  | 46 => some .sampleCnt
  | 47 => some .noise
  | 48 => some .bootStat
  | _ => none

/-- The SFR of a 6-bit number; 49 to 63 name none (R132). -/
def sfrOf (n : BitVec 6) : Except Reject Sfr :=
  match Sfr.ofNat n.toNat with
  | some r => .ok r
  | none => .error .badSfr

/-- CPY_CS takes a readable SFR (R45). -/
def sfrForRead (n : Sfr) : Except Reject Sfr :=
  if n.readable then .ok n else .error .sfrNotReadable

/-- CPY_SC takes a writable SFR (R46). -/
def sfrForWrite (n : Sfr) : Except Reject Sfr :=
  if n.writable then .ok n else .error .sfrNotWritable

/-- CHR's `w` field (R134). -/
def waveOf (b : BitVec 1) : Wave := if b = 1 then .cos else .sin

/-- PITCH's `blklen` field (R135). -/
def blockLenOf (b : BitVec 2) : BlockLen :=
  if b = 0 then .l512 else if b = 1 then .l1024 else if b = 2 then .l2048 else .l4096

/-! ### The fourteen formats (R124): the must-be-zero bits first, then the register names (R field before M field), then
the destination class, then the SFR (R403) -/

/-- Format F0. -/
def rowF0 (i : Instr) (w : Word) : Except Reject Instr :=
  if w.extractLsb 23 16 = 0 ∧ w.extractLsb 15 0 = 0 then .ok i else .error .reservedBits

/-- Format FC with a CREG operand. -/
def rowFC (mk : CReg → Instr) (w : Word) : Except Reject Instr :=
  if w.extractLsb 23 21 = 0 ∧ w.extractLsb 15 0 = 0 then
    (coreReg (w.extractLsb 20 16)).map mk
  else .error .reservedBits

/-- Format FC with a CREGNA operand. -/
def rowFCD (mk : CReg → Instr) (w : Word) : Except Reject Instr :=
  if w.extractLsb 23 21 = 0 ∧ w.extractLsb 15 0 = 0 then
    ((coreReg (w.extractLsb 20 16)).bind notFlags).map mk
  else .error .reservedBits

/-- Format FCC with two CREG operands. -/
def rowFCC (mk : CReg → CReg → Instr) (w : Word) : Except Reject Instr :=
  if w.extractLsb 23 21 = 0 ∧ w.extractLsb 15 5 = 0 then
    (coreReg (w.extractLsb 20 16)).bind fun x => (coreReg (w.extractLsb 4 0)).map (mk x)
  else .error .reservedBits

/-- Format FCC with a CREGNA operand in the R field: BadCoreReg of either field comes before FlagsAsDest (R403). -/
def rowFCCD (mk : CReg → CReg → Instr) (w : Word) : Except Reject Instr :=
  if w.extractLsb 23 21 = 0 ∧ w.extractLsb 15 5 = 0 then
    (coreReg (w.extractLsb 20 16)).bind fun x =>
      (coreReg (w.extractLsb 4 0)).bind fun y => (notFlags x).map (mk · y)
  else .error .reservedBits

/-- Format FCI5. -/
def rowFCI5 (mk : CReg → BitVec 5 → Instr) (w : Word) : Except Reject Instr :=
  if w.extractLsb 23 21 = 0 ∧ w.extractLsb 15 5 = 0 then
    (coreReg (w.extractLsb 20 16)).map (mk · (w.extractLsb 4 0))
  else .error .reservedBits

/-- Format FCI16 with a CREG operand. -/
def rowFCI16 (mk : CReg → Half → Instr) (w : Word) : Except Reject Instr :=
  if w.extractLsb 23 21 = 0 then
    (coreReg (w.extractLsb 20 16)).map (mk · (w.extractLsb 15 0))
  else .error .reservedBits

/-- Format FCI16 with a CREGNA operand. -/
def rowFCI16D (mk : CReg → Half → Instr) (w : Word) : Except Reject Instr :=
  if w.extractLsb 23 21 = 0 then
    ((coreReg (w.extractLsb 20 16)).bind notFlags).map (mk · (w.extractLsb 15 0))
  else .error .reservedBits

/-- Format FCA with a CREG operand. -/
def rowFCA (mk : CReg → DAddr → Instr) (w : Word) : Except Reject Instr :=
  if w.extractLsb 23 21 = 0 ∧ w.extractLsb 15 15 = 0 then
    (coreReg (w.extractLsb 20 16)).map (mk · (w.extractLsb 14 0))
  else .error .reservedBits

/-- Format FCA with a CREGNA operand. -/
def rowFCAD (mk : CReg → DAddr → Instr) (w : Word) : Except Reject Instr :=
  if w.extractLsb 23 21 = 0 ∧ w.extractLsb 15 15 = 0 then
    ((coreReg (w.extractLsb 20 16)).bind notFlags).map (mk · (w.extractLsb 14 0))
  else .error .reservedBits

/-- Format FKA. -/
def rowFKA (mk : BitVec 8 → DAddr → Instr) (w : Word) : Except Reject Instr :=
  if w.extractLsb 15 15 = 0 then .ok (mk (w.extractLsb 23 16) (w.extractLsb 14 0)) else .error .reservedBits

/-- Format FCM with a CREG operand. -/
def rowFCM (mk : CReg → Fin 128 → Instr) (w : Word) : Except Reject Instr :=
  if w.extractLsb 23 21 = 0 ∧ w.extractLsb 15 7 = 0 then
    (coreReg (w.extractLsb 20 16)).map (mk · (w.extractLsb 6 0).toFin)
  else .error .reservedBits

/-- Format FCM with a CREGNA operand. -/
def rowFCMD (mk : CReg → Fin 128 → Instr) (w : Word) : Except Reject Instr :=
  if w.extractLsb 23 21 = 0 ∧ w.extractLsb 15 7 = 0 then
    ((coreReg (w.extractLsb 20 16)).bind notFlags).map (mk · (w.extractLsb 6 0).toFin)
  else .error .reservedBits

/-- Format FCS as CPY_CS uses it: CREGNA destination, readable SFR. -/
def rowFCSRead (w : Word) : Except Reject Instr :=
  if w.extractLsb 23 21 = 0 ∧ w.extractLsb 15 6 = 0 then
    ((coreReg (w.extractLsb 20 16)).bind notFlags).bind fun c =>
      ((sfrOf (w.extractLsb 5 0)).bind sfrForRead).map (.cpyCs c)
  else .error .reservedBits

/-- Format FCS as CPY_SC uses it: CREG source, writable SFR. -/
def rowFCSWrite (w : Word) : Except Reject Instr :=
  if w.extractLsb 23 21 = 0 ∧ w.extractLsb 15 6 = 0 then
    (coreReg (w.extractLsb 20 16)).bind fun c =>
      ((sfrOf (w.extractLsb 5 0)).bind sfrForWrite).map (.cpySc c)
  else .error .reservedBits

/-- Format FCO. -/
def rowFCO (mk : CReg → BitVec 12 → Instr) (w : Word) : Except Reject Instr :=
  if w.extractLsb 23 21 = 0 ∧ w.extractLsb 15 12 = 0 then
    (coreReg (w.extractLsb 20 16)).map (mk · (w.extractLsb 11 0))
  else .error .reservedBits

/-- Format FO. -/
def rowFO (mk : BitVec 12 → Instr) (w : Word) : Except Reject Instr :=
  if w.extractLsb 23 16 = 0 ∧ w.extractLsb 15 12 = 0 then .ok (mk (w.extractLsb 11 0)) else .error .reservedBits

/-- Format FCHR (R134). -/
def rowFCHR (w : Word) : Except Reject Instr :=
  if w.extractLsb 23 20 = 0 ∧ w.extractLsb 15 15 = 0 then
    .ok (.chr (w.getLsbD 19) (w.extractLsb 18 17).toFin (waveOf (w.extractLsb 16 16)) (w.extractLsb 14 0))
  else .error .reservedBits

/-- Format FPITCH (R135). -/
def rowFPITCH (w : Word) : Except Reject Instr :=
  if w.extractLsb 23 22 = 0 ∧ w.extractLsb 17 17 = 0 ∧ w.extractLsb 15 15 = 0 then
    .ok (.pitch (w.extractLsb 21 20).toFin (blockLenOf (w.extractLsb 19 18)) (w.extractLsb 16 16).toFin
      (w.extractLsb 14 0))
  else .error .reservedBits

/-- Format FSET (R136). -/
def rowFSET (w : Word) : Except Reject Instr :=
  if w.extractLsb 23 21 = 0 ∧ w.extractLsb 15 6 = 0 then
    (coreReg (w.extractLsb 20 16)).map (.set · (w.extractLsb 5 5).toFin (w.extractLsb 4 0).toFin)
  else .error .reservedBits

/-- The decoder (R138): bit 24, then the I field, then the row's other must-be-zero bits, then its operands. -/
def decode (w : Word) : Except Reject Instr :=
  if w.getLsbD 24 then .error .reservedBits
  else
    match (iField w).toNat with
    -- math operations, part 1
    | 0x00 => rowFC .abs w
    | 0x01 => rowF0 .clracc64 w
    | 0x02 => rowFCI16 .addi w
    | 0x03 => rowFCC .add w
    | 0x04 => rowFCC .adds w
    | 0x05 => rowFCI16 .addsi w
    | 0x06 => rowFCC .sub w
    | 0x07 => rowFCC .subs w
    | 0x08 => rowFCI5 .sl w
    | 0x09 => rowFCC .slr w
    | 0x0A => rowFCI5 .sls w
    | 0x0B => rowFCC .slsr w
    | 0x0C => rowFCI5 .sr w
    | 0x0D => rowFCC .srr w
    | 0x0E => rowFCI5 .sra w
    | 0x0F => rowFCC .srar w
    -- math operations, part 2
    | 0x10 => rowFCC .macrr w
    | 0x11 => rowFCI16 .macri w
    | 0x12 => rowFCA .macrd w
    | 0x13 => rowFKA .macid w
    | 0x14 => rowFCC .machrr w
    | 0x15 => rowFCI16 .machri w
    | 0x16 => rowFCA .machrd w
    | 0x17 => rowFKA .machid w
    | 0x18 => rowFCC .multrr w
    | 0x19 => rowFCI16 .multri w
    | 0x1A => rowFC .neg w
    | 0x1B => rowFC .log2 w
    | 0x1C => rowFC .exp2 w
    -- copy operations
    | 0x30 => rowFCCD .cpyCc w
    | 0x31 => rowFCMD .cpyCm w
    | 0x32 => rowFCSRead w
    | 0x33 => rowFCM .cpyMc w
    | 0x34 => rowFCSWrite w
    | 0x35 => rowFCCD .cpyCmx w
    -- load/store operations
    | 0x40 => rowFCD .rdacc64u w
    | 0x41 => rowFCD .rdacc64l w
    | 0x42 => rowFC .ldacc64u w
    | 0x43 => rowFC .ldacc64l w
    | 0x44 => rowFCAD .rddel w
    | 0x45 => rowFCA .wrdel w
    | 0x46 => rowFCCD .rddelx w
    | 0x47 => rowFCC .wrdelx w
    | 0x48 => rowFCCD .rddirx w
    | 0x49 => rowFCC .wrdirx w
    | 0x4A => rowFCD .sat64 w
    | 0x4B => rowFCI16D .wrdld w
    -- logic operations
    | 0x50 => rowFC .inv w
    | 0x51 => rowFCC .or w
    | 0x52 => rowFCI16 .ori w
    | 0x53 => rowFCC .and w
    | 0x54 => rowFCI16 .andi w
    | 0x55 => rowFCC .xor w
    | 0x56 => rowFCI16 .xori w
    -- jumps
    | 0x57 => rowFCO .jgez w
    | 0x58 => rowFCO .jneg w
    | 0x59 => rowFCO .jnz w
    | 0x5A => rowFCO .jz w
    | 0x5B => rowFCO .jzc w
    | 0x5C => rowFO .jmp w
    -- extended operations
    | 0x60 => rowFKA .apa w
    | 0x61 => rowFKA .apb w
    | 0x62 => rowFCA .apra w
    | 0x63 => rowFCA .aprb w
    | 0x64 => rowFCC .aprra w
    | 0x65 => rowFCC .aprrb w
    | 0x66 => rowFCM .apma w
    | 0x67 => rowFCM .apmb w
    | 0x68 => rowFCHR w
    | 0x69 => rowFPITCH w
    | 0x6A => rowFSET w
    | 0x6B => rowFCA .interp w
    | _ => .error .illegalOpcode

/-! ### The opcode map as data (R139) -/

/-- One row of R139: a word belongs to it when `w &&& mask = matchBits`. -/
structure Row where
  mnemonic : String
  matchBits : Word
  mask : Word
deriving DecidableEq, Repr

/-- Rows 1 to 12 of R139. -/
def opcodeRows0 : List Row := [
  ⟨"ABS", 0x00000000, 0xFFE0FFFF⟩,
  ⟨"CLRACC64", 0x02000000, 0xFFFFFFFF⟩,
  ⟨"ADDI", 0x04000000, 0xFFE00000⟩,
  ⟨"ADD", 0x06000000, 0xFFE0FFE0⟩,
  ⟨"ADDS", 0x08000000, 0xFFE0FFE0⟩,
  ⟨"ADDSI", 0x0A000000, 0xFFE00000⟩,
  ⟨"SUB", 0x0C000000, 0xFFE0FFE0⟩,
  ⟨"SUBS", 0x0E000000, 0xFFE0FFE0⟩,
  ⟨"SL", 0x10000000, 0xFFE0FFE0⟩,
  ⟨"SLR", 0x12000000, 0xFFE0FFE0⟩,
  ⟨"SLS", 0x14000000, 0xFFE0FFE0⟩,
  ⟨"SLSR", 0x16000000, 0xFFE0FFE0⟩]

/-- Rows 13 to 24 of R139. -/
def opcodeRows1 : List Row := [
  ⟨"SR", 0x18000000, 0xFFE0FFE0⟩,
  ⟨"SRR", 0x1A000000, 0xFFE0FFE0⟩,
  ⟨"SRA", 0x1C000000, 0xFFE0FFE0⟩,
  ⟨"SRAR", 0x1E000000, 0xFFE0FFE0⟩,
  ⟨"MACRR", 0x20000000, 0xFFE0FFE0⟩,
  ⟨"MACRI", 0x22000000, 0xFFE00000⟩,
  ⟨"MACRD", 0x24000000, 0xFFE08000⟩,
  ⟨"MACID", 0x26000000, 0xFF008000⟩,
  ⟨"MACHRR", 0x28000000, 0xFFE0FFE0⟩,
  ⟨"MACHRI", 0x2A000000, 0xFFE00000⟩,
  ⟨"MACHRD", 0x2C000000, 0xFFE08000⟩,
  ⟨"MACHID", 0x2E000000, 0xFF008000⟩]

/-- Rows 25 to 36 of R139. -/
def opcodeRows2 : List Row := [
  ⟨"MULTRR", 0x30000000, 0xFFE0FFE0⟩,
  ⟨"MULTRI", 0x32000000, 0xFFE00000⟩,
  ⟨"NEG", 0x34000000, 0xFFE0FFFF⟩,
  ⟨"LOG2", 0x36000000, 0xFFE0FFFF⟩,
  ⟨"EXP2", 0x38000000, 0xFFE0FFFF⟩,
  ⟨"CPY_CC", 0x60000000, 0xFFE0FFE0⟩,
  ⟨"CPY_CM", 0x62000000, 0xFFE0FF80⟩,
  ⟨"CPY_CS", 0x64000000, 0xFFE0FFC0⟩,
  ⟨"CPY_MC", 0x66000000, 0xFFE0FF80⟩,
  ⟨"CPY_SC", 0x68000000, 0xFFE0FFC0⟩,
  ⟨"CPY_CMX", 0x6A000000, 0xFFE0FFE0⟩,
  ⟨"RDACC64U", 0x80000000, 0xFFE0FFFF⟩]

/-- Rows 37 to 48 of R139. -/
def opcodeRows3 : List Row := [
  ⟨"RDACC64L", 0x82000000, 0xFFE0FFFF⟩,
  ⟨"LDACC64U", 0x84000000, 0xFFE0FFFF⟩,
  ⟨"LDACC64L", 0x86000000, 0xFFE0FFFF⟩,
  ⟨"RDDEL", 0x88000000, 0xFFE08000⟩,
  ⟨"WRDEL", 0x8A000000, 0xFFE08000⟩,
  ⟨"RDDELX", 0x8C000000, 0xFFE0FFE0⟩,
  ⟨"WRDELX", 0x8E000000, 0xFFE0FFE0⟩,
  ⟨"RDDIRX", 0x90000000, 0xFFE0FFE0⟩,
  ⟨"WRDIRX", 0x92000000, 0xFFE0FFE0⟩,
  ⟨"SAT64", 0x94000000, 0xFFE0FFFF⟩,
  ⟨"WRDLD", 0x96000000, 0xFFE00000⟩,
  ⟨"INV", 0xA0000000, 0xFFE0FFFF⟩]

/-- Rows 49 to 60 of R139. -/
def opcodeRows4 : List Row := [
  ⟨"OR", 0xA2000000, 0xFFE0FFE0⟩,
  ⟨"ORI", 0xA4000000, 0xFFE00000⟩,
  ⟨"AND", 0xA6000000, 0xFFE0FFE0⟩,
  ⟨"ANDI", 0xA8000000, 0xFFE00000⟩,
  ⟨"XOR", 0xAA000000, 0xFFE0FFE0⟩,
  ⟨"XORI", 0xAC000000, 0xFFE00000⟩,
  ⟨"JGEZ", 0xAE000000, 0xFFE0F000⟩,
  ⟨"JNEG", 0xB0000000, 0xFFE0F000⟩,
  ⟨"JNZ", 0xB2000000, 0xFFE0F000⟩,
  ⟨"JZ", 0xB4000000, 0xFFE0F000⟩,
  ⟨"JZC", 0xB6000000, 0xFFE0F000⟩,
  ⟨"JMP", 0xB8000000, 0xFFFFF000⟩]

/-- Rows 61 to 72 of R139. -/
def opcodeRows5 : List Row := [
  ⟨"APA", 0xC0000000, 0xFF008000⟩,
  ⟨"APB", 0xC2000000, 0xFF008000⟩,
  ⟨"APRA", 0xC4000000, 0xFFE08000⟩,
  ⟨"APRB", 0xC6000000, 0xFFE08000⟩,
  ⟨"APRRA", 0xC8000000, 0xFFE0FFE0⟩,
  ⟨"APRRB", 0xCA000000, 0xFFE0FFE0⟩,
  ⟨"APMA", 0xCC000000, 0xFFE0FF80⟩,
  ⟨"APMB", 0xCE000000, 0xFFE0FF80⟩,
  ⟨"CHR", 0xD0000000, 0xFFF08000⟩,
  ⟨"PITCH", 0xD2000000, 0xFFC28000⟩,
  ⟨"SET", 0xD4000000, 0xFFE0FFC0⟩,
  ⟨"INTERP", 0xD6000000, 0xFFE08000⟩]

/-- The 72 rows of R139, in its order. -/
def opcodeRows : List Row := opcodeRows0 ++ opcodeRows1 ++ opcodeRows2 ++ opcodeRows3 ++ opcodeRows4 ++ opcodeRows5

/-- The word has the fixed bits of this row (R138). -/
def Row.accepts (r : Row) (w : Word) : Bool := w &&& r.mask == r.matchBits

/-- The mnemonic of an instruction, as R139 spells it. -/
def Instr.mnemonic : Instr → String
  | .abs _ => "ABS"
  | .clracc64 => "CLRACC64"
  | .addi _ _ => "ADDI"
  | .add _ _ => "ADD"
  | .adds _ _ => "ADDS"
  | .addsi _ _ => "ADDSI"
  | .sub _ _ => "SUB"
  | .subs _ _ => "SUBS"
  | .sl _ _ => "SL"
  | .slr _ _ => "SLR"
  | .sls _ _ => "SLS"
  | .slsr _ _ => "SLSR"
  | .sr _ _ => "SR"
  | .srr _ _ => "SRR"
  | .sra _ _ => "SRA"
  | .srar _ _ => "SRAR"
  | .macrr _ _ => "MACRR"
  | .macri _ _ => "MACRI"
  | .macrd _ _ => "MACRD"
  | .macid _ _ => "MACID"
  | .machrr _ _ => "MACHRR"
  | .machri _ _ => "MACHRI"
  | .machrd _ _ => "MACHRD"
  | .machid _ _ => "MACHID"
  | .multrr _ _ => "MULTRR"
  | .multri _ _ => "MULTRI"
  | .neg _ => "NEG"
  | .log2 _ => "LOG2"
  | .exp2 _ => "EXP2"
  | .cpyCc _ _ => "CPY_CC"
  | .cpyCm _ _ => "CPY_CM"
  | .cpyCs _ _ => "CPY_CS"
  | .cpyMc _ _ => "CPY_MC"
  | .cpySc _ _ => "CPY_SC"
  | .cpyCmx _ _ => "CPY_CMX"
  | .rdacc64u _ => "RDACC64U"
  | .rdacc64l _ => "RDACC64L"
  | .ldacc64u _ => "LDACC64U"
  | .ldacc64l _ => "LDACC64L"
  | .rddel _ _ => "RDDEL"
  | .wrdel _ _ => "WRDEL"
  | .rddelx _ _ => "RDDELX"
  | .wrdelx _ _ => "WRDELX"
  | .rddirx _ _ => "RDDIRX"
  | .wrdirx _ _ => "WRDIRX"
  | .sat64 _ => "SAT64"
  | .wrdld _ _ => "WRDLD"
  | .inv _ => "INV"
  | .or _ _ => "OR"
  | .ori _ _ => "ORI"
  | .and _ _ => "AND"
  | .andi _ _ => "ANDI"
  | .xor _ _ => "XOR"
  | .xori _ _ => "XORI"
  | .jgez _ _ => "JGEZ"
  | .jneg _ _ => "JNEG"
  | .jnz _ _ => "JNZ"
  | .jz _ _ => "JZ"
  | .jzc _ _ => "JZC"
  | .jmp _ => "JMP"
  | .apa _ _ => "APA"
  | .apb _ _ => "APB"
  | .apra _ _ => "APRA"
  | .aprb _ _ => "APRB"
  | .aprra _ _ => "APRRA"
  | .aprrb _ _ => "APRRB"
  | .apma _ _ => "APMA"
  | .apmb _ _ => "APMB"
  | .chr _ _ _ _ => "CHR"
  | .pitch _ _ _ _ => "PITCH"
  | .set _ _ _ => "SET"
  | .interp _ _ => "INTERP"

/-! ### The encoder (R121, R124-R136) -/

/-- The 5-bit code of a core register (R31). -/
def CReg.code : CReg → BitVec 5
  | .r n => BitVec.ofFin (n.castLE (by decide))
  | .acc32 => 16
  | .flags => 17

/-- The number of an SFR (R44). -/
def Sfr.num : Sfr → BitVec 6
  | .adc n => BitVec.ofNat 6 n.val
  | .out n => BitVec.ofNat 6 (4 + n.val)
  | .pin => 8
  | .switch => 9
  | .potK n => BitVec.ofNat 6 (10 + n.val)
  | .pot n => BitVec.ofNat 6 (16 + n.val)
  | .potSmth n => BitVec.ofNat 6 (22 + n.val)
  | .lfoF n => BitVec.ofNat 6 (28 + n.val)
  | .rampF n => BitVec.ofNat 6 (32 + n.val)
  | .lfoSin n => BitVec.ofNat 6 (34 + 2 * n.val)
  | .lfoCos n => BitVec.ofNat 6 (35 + 2 * n.val)
  | .rampOut n => BitVec.ofNat 6 (42 + n.val)
  | .maxTempo => 44
  | .tapTempo => 45
  | .sampleCnt => 46
  | .noise => 47
  | .bootStat => 48

/-- CHR's `w` bit (R134). -/
def Wave.bit : Wave → BitVec 1
  | .sin => 0
  | .cos => 1

/-- PITCH's `blklen` bits (R135). -/
def BlockLen.bits : BlockLen → BitVec 2
  | .l512 => 0
  | .l1024 => 1
  | .l2048 => 2
  | .l4096 => 3

/-- An instruction word from its I, R and M fields; bit 24 is 0 (R121, R122). -/
def wordOf (i : BitVec 7) (r : BitVec 8) (m : Half) : Word := i ++ 0#1 ++ r ++ m

/-- The R field that holds a core register: bits 23:21 are 0 (R125). -/
def regField (c : CReg) : BitVec 8 := 0#3 ++ c.code

/-- The M field that holds a delay address: bit 15 is 0 (R129). -/
def addrField (a : DAddr) : Half := 0#1 ++ a

def wordF0 (i : BitVec 7) : Word := wordOf i 0 0
def wordFC (i : BitVec 7) (c : CReg) : Word := wordOf i (regField c) 0
def wordFCC (i : BitVec 7) (x y : CReg) : Word := wordOf i (regField x) (0#11 ++ y.code)
def wordFCI5 (i : BitVec 7) (c : CReg) (n : BitVec 5) : Word := wordOf i (regField c) (0#11 ++ n)
def wordFCI16 (i : BitVec 7) (c : CReg) (imm : Half) : Word := wordOf i (regField c) imm
def wordFCA (i : BitVec 7) (c : CReg) (a : DAddr) : Word := wordOf i (regField c) (addrField a)
def wordFKA (i : BitVec 7) (k : BitVec 8) (a : DAddr) : Word := wordOf i k (addrField a)
def wordFCM (i : BitVec 7) (c : CReg) (m : Fin 128) : Word := wordOf i (regField c) (0#9 ++ BitVec.ofFin (w := 7) m)
def wordFCS (i : BitVec 7) (c : CReg) (n : Sfr) : Word := wordOf i (regField c) (0#10 ++ n.num)
def wordFCO (i : BitVec 7) (c : CReg) (o : BitVec 12) : Word := wordOf i (regField c) (0#4 ++ o)
def wordFO (i : BitVec 7) (o : BitVec 12) : Word := wordOf i 0 (0#4 ++ o)
def wordFCHR (i : BitVec 7) (neg : Bool) (lfo : Fin 4) (v : Wave) (a : DAddr) : Word :=
  wordOf i (0#4 ++ BitVec.ofBool neg ++ BitVec.ofFin (w := 2) lfo ++ v.bit) (addrField a)
def wordFPITCH (i : BitVec 7) (x : Fin 4) (l : BlockLen) (r : Fin 2) (a : DAddr) : Word :=
  wordOf i (0#2 ++ BitVec.ofFin (w := 2) x ++ l.bits ++ 0#1 ++ BitVec.ofFin (w := 1) r) (addrField a)
def wordFSET (i : BitVec 7) (c : CReg) (u : Fin 2) (n : Fin 32) : Word :=
  wordOf i (regField c) (0#10 ++ BitVec.ofFin (w := 1) u ++ BitVec.ofFin (w := 5) n)

/-- The word of an instruction, from its encoding line (R139). -/
def encode : Instr → Word
  -- math operations, part 1
  | .abs c => wordFC 0x00 c
  | .clracc64 => wordF0 0x01
  | .addi c imm => wordFCI16 0x02 c imm
  | .add x y => wordFCC 0x03 x y
  | .adds x y => wordFCC 0x04 x y
  | .addsi c imm => wordFCI16 0x05 c imm
  | .sub x y => wordFCC 0x06 x y
  | .subs x y => wordFCC 0x07 x y
  | .sl c n => wordFCI5 0x08 c n
  | .slr x y => wordFCC 0x09 x y
  | .sls c n => wordFCI5 0x0A c n
  | .slsr x y => wordFCC 0x0B x y
  | .sr c n => wordFCI5 0x0C c n
  | .srr x y => wordFCC 0x0D x y
  | .sra c n => wordFCI5 0x0E c n
  | .srar x y => wordFCC 0x0F x y
  -- math operations, part 2
  | .macrr x y => wordFCC 0x10 x y
  | .macri c imm => wordFCI16 0x11 c imm
  | .macrd c a => wordFCA 0x12 c a
  | .macid k a => wordFKA 0x13 k a
  | .machrr x y => wordFCC 0x14 x y
  | .machri c imm => wordFCI16 0x15 c imm
  | .machrd c a => wordFCA 0x16 c a
  | .machid k a => wordFKA 0x17 k a
  | .multrr x y => wordFCC 0x18 x y
  | .multri c imm => wordFCI16 0x19 c imm
  | .neg c => wordFC 0x1A c
  | .log2 c => wordFC 0x1B c
  | .exp2 c => wordFC 0x1C c
  -- copy operations
  | .cpyCc x y => wordFCC 0x30 x y
  | .cpyCm c m => wordFCM 0x31 c m
  | .cpyCs c n => wordFCS 0x32 c n
  | .cpyMc c m => wordFCM 0x33 c m
  | .cpySc c n => wordFCS 0x34 c n
  | .cpyCmx x y => wordFCC 0x35 x y
  -- load/store operations
  | .rdacc64u c => wordFC 0x40 c
  | .rdacc64l c => wordFC 0x41 c
  | .ldacc64u c => wordFC 0x42 c
  | .ldacc64l c => wordFC 0x43 c
  | .rddel c a => wordFCA 0x44 c a
  | .wrdel c a => wordFCA 0x45 c a
  | .rddelx x y => wordFCC 0x46 x y
  | .wrdelx x y => wordFCC 0x47 x y
  | .rddirx x y => wordFCC 0x48 x y
  | .wrdirx x y => wordFCC 0x49 x y
  | .sat64 c => wordFC 0x4A c
  | .wrdld c imm => wordFCI16 0x4B c imm
  -- logic operations
  | .inv c => wordFC 0x50 c
  | .or x y => wordFCC 0x51 x y
  | .ori c imm => wordFCI16 0x52 c imm
  | .and x y => wordFCC 0x53 x y
  | .andi c imm => wordFCI16 0x54 c imm
  | .xor x y => wordFCC 0x55 x y
  | .xori c imm => wordFCI16 0x56 c imm
  -- jumps
  | .jgez c o => wordFCO 0x57 c o
  | .jneg c o => wordFCO 0x58 c o
  | .jnz c o => wordFCO 0x59 c o
  | .jz c o => wordFCO 0x5A c o
  | .jzc c o => wordFCO 0x5B c o
  | .jmp o => wordFO 0x5C o
  -- extended operations
  | .apa k a => wordFKA 0x60 k a
  | .apb k a => wordFKA 0x61 k a
  | .apra c a => wordFCA 0x62 c a
  | .aprb c a => wordFCA 0x63 c a
  | .aprra x y => wordFCC 0x64 x y
  | .aprrb x y => wordFCC 0x65 x y
  | .apma c m => wordFCM 0x66 c m
  | .apmb c m => wordFCM 0x67 c m
  | .chr neg lfo v a => wordFCHR 0x68 neg lfo v a
  | .pitch x l r a => wordFPITCH 0x69 x l r a
  | .set c u n => wordFSET 0x6A c u n
  | .interp c a => wordFCA 0x6B c a

/-- The instruction the decoder reads from a word of `nbits` bits numbered as spec/opcode_table.json numbers them; bits
above `nbits` are 0. The FX Core has one word length, 32 bits, and no byte order (R82, R120, R145). -/
def decodeTableWord (nbits w : Nat) : Option Instr :=
  match decode (BitVec.ofNat 32 (w % 2 ^ nbits)) with
  | .ok i => some i
  | .error _ => none

end Sys2Proof
end

