-- ==== Sys2Proof/Config.lean ====
section
/-! DEFINITION. What is fixed for a run or left open by the spec (00_scope.md R7): the implementation parameters, the
program and its header, and the FREE VALUES: opaque constants with no body, of which nothing can be proved. A free value
that differs from one time to the next is applied to the step counter `drawIx` of the state. -/

namespace Sys2Proof

/-- What the hardware drives into the read-only SFRs (10_state.md R44, R45): an environment input (R16, R53).
The sign of POTn and of POTn_SMTH is always 0 and is therefore not held. -/
structure Env where
  /-- IN0-IN3. -/
  adc : Vector Word 4
  /-- PIN, 16 LSBs. -/
  pin : Half
  /-- SWITCH, 16 LSBs. -/
  switch : Half
  /-- POT0-POT5: the 12 bits below the sign of the S.12 value. -/
  pot : Vector (BitVec 12) 6
  /-- POT0_SMTH-POT5_SMTH: the 31 bits below the sign of the S.31 value. -/
  potSmth : Vector (BitVec 31) 6
  /-- LFO0_S-LFO3_S. -/
  lfoSin : Vector Word 4
  /-- LFO0_C-LFO3_C. -/
  lfoCos : Vector Word 4
  /-- RAMP0_R, RAMP1_R. -/
  rampOut : Vector Word 2
  /-- NOISE. -/
  noise : Word
  /-- BOOTSTAT. -/
  bootStat : Word
deriving DecidableEq, Repr, Inhabited

/-- The SFRs that CPY_SC writes and CPY_CS reads back (R44, R45). -/
structure Ctl where
  /-- POT0_K-POT5_K, 5 LSBs. -/
  potK : Vector (BitVec 5) 6
  /-- LFO0_F-LFO3_F. -/
  lfoF : Vector Word 4
  /-- RAMP0_F, RAMP1_F. -/
  rampF : Vector Word 2
  /-- MAXTEMPO. -/
  maxTempo : Word
deriving DecidableEq, Repr, Inhabited

/-- The five configuration registers, set by the program header only (R47). -/
structure CfgRegs where
  tapStkRld : Half
  tapDbRld : Half
  swDbRld : Half
  prgDbRld : Half
  oflRld : Half
deriving DecidableEq, Repr, Inhabited

/-- What a `.SREG` directive may name: the settable SFRs of R44 and the configuration registers of R47 (R161). -/
inductive Settable where
  | potK (n : Fin 6)
  | lfoF (n : Fin 4)
  | rampF (n : Fin 2)
  | maxTempo
  | tapTempo
  | tapStkRld
  | tapDbRld
  | swDbRld
  | prgDbRld
  | oflRld
deriving DecidableEq, Repr

/-- The program header (R51): three partial maps, each a list of entries. -/
structure Header where
  creg : List (Fin 16 × Word)
  mreg : List (Fin 128 × Word)
  sreg : List (Settable × Word)
deriving DecidableEq, Repr

/-- A program: its instruction words from address 0 and its header (R440, R449). -/
structure Program where
  text : List Word
  header : Header
deriving DecidableEq, Repr

/-- A program the machine can hold (93_implementation_defined.md U16, R50): 1 to 1024 instructions; and each header map
gives a register at most one value (R51 calls them partial maps). -/
def Program.wf (p : Program) : Bool :=
  decide (1 ≤ p.text.length) && decide (p.text.length ≤ 1024)
    && decide ((p.header.creg.map Prod.fst).Nodup)
    && decide ((p.header.mreg.map Prod.fst).Nodup)
    && decide ((p.header.sreg.map Prod.fst).Nodup)

/-- The open parameters of R7 that have a spec default. They stand beside the machine's state; no step changes them. -/
structure Params where
  /-- JUMP_BIAS: false is 0 (the jump's own address), true is 1 (the next address); D3. -/
  jumpBias : Bool
  /-- MAC_PRESAT: a MAC saturates its product before the addition; D17. -/
  macPresat : Bool
  /-- MACH16_LOSSLESS: the 16-bit operand of MACHRI, MACHRD, MACHID keeps its 3 low bits; D18. -/
  mach16Lossless : Bool
  /-- APMAC is the spec's default formula (R351); otherwise it is `Config.apmacOpen`; D20. -/
  apmacDefault : Bool
  /-- APNEG is the spec's default formula (R351); otherwise it is `Config.apnegOpen`; D20. -/
  apnegDefault : Bool
  /-- INTERP_FN is the spec's default formula (R366); otherwise it is `Config.interpOpen`; D22. -/
  interpDefault : Bool
deriving DecidableEq, Repr

/-- The "spec default" column of R7. -/
def Config.specDefaults : Params :=
  { jumpBias := false, macPresat := true, mach16Lossless := false,
    apmacDefault := true, apnegDefault := true, interpDefault := true }

/-- DESIGN CHOICE, unsafe (log 1, 2, 3): the value at reset of a register for which the spec gives none: the low `w` bits
of 0xDEADBEEFDEADBEEF. R56 forbids that such a register reads as 0. -/
def Config.unspecified (w : Nat) : BitVec w := BitVec.ofNat w 0xDEADBEEFDEADBEEF

/-! ### Free values: what the environment drives (R16, R42, R45, R53; log 4, 6, 8) -/

/-- The read-only SFRs as the hardware drives them at draw `n`. -/
opaque Config.environment (n : Nat) : Env

/-- The 16 bits of FLAGS as the hardware drives them at draw `n` (R42), the reserved bits 7 and 6 among them (R41). -/
opaque Config.flagBits (n : Nat) : Half

/-- TAPTEMPO's new value at draw `n`, or none where the unit has measured nothing new (R45, R424). -/
opaque Config.tapMeasured (n : Nat) : Option Word

/-! ### Free values: bits and values the spec leaves unstated -/

/-- The bits of a read that the spec does not state (R35, R45; log 5), taken in place from a 32-bit draw. -/
opaque Config.undefinedBits (n : Nat) : Word

/-- What DAC channel `k` outputs for a period whose iteration did not write OUTk (R447, U32; log 21). -/
opaque Config.undrivenOutput (n : Nat) (k : Fin 4) : Word

/-- ABS_MIN (R201, D15; log 10): whether ABS of 0x80000000 is 0x7FFFFFFF (true) or 0x80000000 (false). -/
opaque Config.absMinSaturates : Bool

/-- LOG2_FN (R243, D19; log 14). -/
opaque Config.log2Fn (v : Word) : Word

/-- EXP2_FN (R244, D19; log 14). -/
opaque Config.exp2Fn (v : Word) : Word

/-- APMAC where it is not the spec's default (R351, D20; log 13). -/
opaque Config.apmacOpen (c a b : Word) : Word

/-- APNEG where it is not the spec's default (R351, D20; log 13). -/
opaque Config.apnegOpen (k : Word) : Word

/-- INTERP_FN where it is not the spec's default (R366, D22; log 13). -/
opaque Config.interpOpen (s0 s1 k : Word) : Word

/-- CHR_FN (R363, D21; log 15): selectors, address, PARAM0, DCNT, the delay RAM and the chosen LFO's present output. -/
opaque Config.chrFn (neg : Bool) (lfo : Fin 4) (w : Wave) (addr : DAddr) (p : Word) (dcnt : DAddr)
    (dm : List (Nat × Half)) (lfoOut : Word) : Word

/-- PITCH_FN (R364, D21; log 15): selectors, address, DCNT, the delay RAM and the chosen ramp's present output. -/
opaque Config.pitchFn (xfade : Fin 4) (blklen : BlockLen) (ramp : Fin 2) (addr : DAddr) (dcnt : DAddr)
    (dm : List (Nat × Half)) (rampOut : Word) : Word

/-! ### Free values: what a program change leaves unspecified (R440, R56; log 9) -/

/-- R0-R15 without a `.CREG` entry. -/
opaque Config.unsetCore (n : Nat) : Vector Word 16

/-- MR0-MR127 without an `.MREG` entry. -/
opaque Config.unsetMreg (n : Nat) : Vector Word 128

/-- The settable SFRs without an `.SREG` entry. -/
opaque Config.unsetCtl (n : Nat) : Ctl

/-- The configuration registers without an `.SREG` entry. -/
opaque Config.unsetCfg (n : Nat) : CfgRegs

/-- TAPTEMPO without an `.SREG` entry. -/
opaque Config.unsetTapTempo (n : Nat) : Word

/-- OUT0-OUT3 after loading. -/
opaque Config.unsetOut (n : Nat) : Vector Word 4

/-- The user pins after loading. -/
opaque Config.unsetUser (n : Nat) : Vector Bool 2

/-- DCNT_INIT (R49, D24). -/
opaque Config.dcntInit (n : Nat) : DAddr

/-! ### Parameters that no rule reads, and the assembler's open points -/

/-- CLOCKS_PER_SAMPLE (R462): carried, read by nothing. -/
opaque Config.clocksPerSample : Nat

/-- Whether the assembler rounds a fraction of `num / den`, which its field cannot hold exactly, upward (R149, D30; log 27). -/
opaque Config.asmRoundsUp (num : Int) (den : Nat) : Bool

/-- How many fraction bits beyond 32 the assembler's own real power keeps (R148; 95_test_vectors.md section 1.2; log 30). -/
opaque Config.asmPowerBits : Nat

/-- Whether the assembler's real power rounds an inexact `base ^ exponent` upward (R148; log 30). -/
opaque Config.asmPowerRoundsUp (base exponent : Rat) : Bool

/-- How a `.SREG` value without `.i` is scaled into a register narrower than 32 bits (R161, N14; log 27). -/
opaque Config.asmNarrowScale (r : Settable) (value : Rat) : Word

end Sys2Proof
end

