-- ==== Sys2Proof/Machine/Memory.lean ====
section
/-! DEFINITION. A word-addressed memory as a list of (address, word) pairs (20_memory.md R80, R81): an address that is not
listed reads as 0. The canonical form, `Memory.wf`, has addresses strictly rising and below the memory's size, and lists no
zero word, so that equal memories are equal lists. Cells are whole words: R82 forbids a serialisation into bytes (log 19). -/

namespace Sys2Proof.Machine

/-- A memory of `w`-bit words. -/
abbrev Memory (w : Nat) : Type := List (Nat × BitVec w)

/-- The word at an address; 0 where nothing is listed ("the delay RAM is cleared", R48). -/
def Memory.read {w : Nat} (m : Memory w) (a : Nat) : BitVec w :=
  match m with
  | [] => 0
  | (b, v) :: rest => if b = a then v else Memory.read rest a

/-- The memory without the entries of an address. -/
def Memory.erase {w : Nat} (m : Memory w) (a : Nat) : Memory w :=
  match m with
  | [] => []
  | (b, v) :: rest => if b = a then Memory.erase rest a else (b, v) :: Memory.erase rest a

/-- The memory with an entry put before the first higher address. -/
def Memory.insert {w : Nat} (m : Memory w) (a : Nat) (v : BitVec w) : Memory w :=
  match m with
  | [] => [(a, v)]
  | (b, u) :: rest => if a < b then (a, v) :: (b, u) :: rest else (b, u) :: Memory.insert rest a v

/-- The memory after a store of one word; storing 0 removes the entry. -/
def Memory.write {w : Nat} (m : Memory w) (a : Nat) (v : BitVec w) : Memory w :=
  if v = 0 then Memory.erase m a else Memory.insert (Memory.erase m a) a v

/-- Every listed address is above `lo`, the addresses rise strictly, all are below `size`, no listed word is 0. -/
def Memory.wfFrom {w : Nat} (lo : Nat) (size : Nat) (m : Memory w) : Bool :=
  match m with
  | [] => true
  | (b, v) :: rest => decide (lo ≤ b) && decide (b < size) && decide (v ≠ 0) && Memory.wfFrom (b + 1) size rest

/-- The canonical form of a memory of `size` words. -/
def Memory.wf {w : Nat} (size : Nat) (m : Memory w) : Bool := Memory.wfFrom 0 size m

/-- The memory after storing a list of words from an address upward. -/
def Memory.load {w : Nat} (m : Memory w) (a : Nat) (ws : List (BitVec w)) : Memory w :=
  match ws with
  | [] => m
  | v :: rest => Memory.load (Memory.write m a v) (a + 1) rest

end Sys2Proof.Machine
end

