-- ==== Sys2Proof/Machine/State.lean ====
section
/-! DEFINITION. The state of the FX Core (10_state.md R30), the ways a step can stop (60_exceptions.md R402), and the state
right after reset: the state after a program change applied to a machine about which nothing is known
(70_reset_and_hazards.md R442, 10_state.md R56), with no program loaded yet (log 16). -/

namespace Sys2Proof.Machine

/-- The machine's state. The last two fields, `par` and `drawIx`, are the model's own. -/
structure State where
  /-- R0-R15 (R32). -/
  core : Vector Word 16
  /-- ACC32, core register 16 (R34). -/
  acc32 : Word
  /-- The 16 bits of FLAGS, core register 17, as the hardware drives them now (R35, R41, R42). -/
  flags : Half
  /-- ACC64 (R38). -/
  acc64 : Long
  /-- MR0-MR127 (R39). -/
  mreg : Vector Word 128
  /-- The program counter, in instruction words, 0 to PROG_LEN (R40). -/
  pc : Nat
  /-- The SFRs that the hardware drives (R45). -/
  env : Env
  /-- The SFRs that programs write and read (R45, R46). -/
  ctl : Ctl
  /-- TAPTEMPO, set by the header and then by the tap tempo unit (R44, R45). -/
  tapTempo : Word
  /-- SAMPLECNT (R54). -/
  sampleCnt : Word
  /-- OUT0-OUT3 (R46). -/
  out : Vector Word 4
  /-- Which of OUT0-OUT3 the running iteration has written (R447). -/
  outWritten : Vector Bool 4
  /-- What each DAC channel outputs: the sample of the last finished period, or nothing while muted (R447, R440). -/
  dac : Vector (Option Word) 4
  /-- The configuration registers (R47). -/
  cfg : CfgRegs
  /-- The delay RAM, 32768 words (R48). -/
  delay : Memory 16
  /-- DCNT, the delay address counter (R49). -/
  dcnt : DAddr
  /-- The instruction RAM, 1024 words (R50). -/
  iram : Memory 32
  /-- PROG_LEN, the number of instructions of the loaded program; 0 while none is loaded (R7, R446). -/
  progLen : Nat
  /-- The user output bits USER0 and USER1 (R52). -/
  user : Vector Bool 2
  /-- A program selected from outside and not loaded yet (R440, R448). -/
  pending : Option Program
  /-- The open parameters that have a spec default (R7); no step changes them. -/
  par : Params
  /-- The step counter that the free values of Config are applied to (R16). -/
  drawIx : Nat
deriving DecidableEq, Repr

/-- The ModelFaults of 60_exceptions.md R402, numbered as there. Each marks a point where the source gives the machine no
behaviour; the model stops where the hardware goes on in some way: safe. UnsetRegister (9) is not among them: a register
always holds a value (log 1, 9), which R56 and R402 allow. -/
inductive Fault where
  /-- 1: the decoder, where bit 24 or another must-be-zero bit is 1 (R141). Safe. -/
  | reservedBits
  /-- 2: the decoder, where the I field is unassigned (R140). Safe. -/
  | illegalOpcode
  /-- 3: the decoder, where a register field holds 18 to 31 (R142). Safe. -/
  | badCoreReg
  /-- 4: the decoder and every instruction with a CREGNA destination, where that is FLAGS (R35). Safe. -/
  | flagsAsDest
  /-- 5: the decoder, where the SFR field holds 49 to 63 (R45, R46). Safe. -/
  | badSfr
  /-- 6: the decoder and CPY_CS, where the SFR is OUT0-OUT3 (R45). Safe. -/
  | sfrNotReadable
  /-- 7: the decoder and CPY_SC, where the SFR is read only (R46). Safe. -/
  | sfrNotWritable
  /-- 8: the six jumps, where the target is not in pc+1 to PROG_LEN-1 (R330 d). Safe. -/
  | jumpOutOfRange
  /-- 10: EXP2, where bit 31 of the operand is 0 (R244). Safe. -/
  | exp2NonNegative
  /-- 11: CHR, where R15 bit 31 is 1 (R363). Safe. -/
  | chrParamBad
deriving DecidableEq, Repr

/-- Where the model does not accept its input at all. -/
inductive Refusal where
  /-- The dispatcher, for an instruction without a meaning; no arm of this model answers it. Safe. -/
  | notModelled (mnemonic : String)
  /-- A step with no program loaded and none selected (93_implementation_defined.md U16: a program has at least one
  instruction). Safe. -/
  | noProgram
  /-- The loader, for a selected program that is empty, longer than the instruction RAM, or whose header gives a register
  two values (U16, R51). Safe. -/
  | badProgram
deriving DecidableEq, Repr

/-- One step's outcome on this machine. -/
abbrev Out : Type := Host.Outcome State Fault Refusal

/-- The machine right after reset (R442, R56). ACC32, SAMPLECNT, pc and the delay RAM are as the spec says; what the
hardware drives is a free value; every other register holds the value log 1, 2 and 3 name. -/
def State.reset : State :=
  { core := Vector.replicate 16 (Config.unspecified 32)
    acc32 := 0
    flags := Config.flagBits 0
    acc64 := Config.unspecified 64
    mreg := Vector.replicate 128 (Config.unspecified 32)
    pc := 0
    env := Config.environment 0
    ctl :=
      { potK := Vector.replicate 6 (Config.unspecified 5)
        lfoF := Vector.replicate 4 (Config.unspecified 32)
        rampF := Vector.replicate 2 (Config.unspecified 32)
        maxTempo := Config.unspecified 32 }
    tapTempo := Config.unspecified 32
    sampleCnt := 0
    out := Vector.replicate 4 (Config.unspecified 32)
    outWritten := Vector.replicate 4 false
    dac := Vector.replicate 4 none
    cfg :=
      { tapStkRld := Config.unspecified 16
        tapDbRld := Config.unspecified 16
        swDbRld := Config.unspecified 16
        prgDbRld := Config.unspecified 16
        oflRld := Config.unspecified 16 }
    delay := []
    dcnt := Config.unspecified 15
    iram := []
    progLen := 0
    user := Vector.replicate 2 true
    pending := none
    par := Config.specDefaults
    drawIx := 0 }

end Sys2Proof.Machine
end

