-- ==== Sys2Proof/Machine/Flags.lean ====
section
/-! DEFINITION. FLAGS (10_state.md R35, R41, R42): the names of its bits, their masks (30_encoding.md R155), and the word a
read of FLAGS delivers. There is no flag computation on this machine: no instruction writes FLAGS or keeps a carry, zero,
sign or overflow flag (R42, R200 d); all 16 bits are the hardware's. -/

namespace Sys2Proof.Machine

/-- The named bits of FLAGS (R41). Bits 7 and 6 are reserved. -/
inductive Flag where
  /-- Output 3 to 0 overflow, bits 15 to 12. -/
  | outOflo (n : Fin 4)
  /-- Input 3 to 0 clip, bits 11 to 8. -/
  | inOflo (n : Fin 4)
  /-- 0: tap button "1" event, 1: tap button "2" event; bit 5. -/
  | tb2ntb1
  /-- The tap button has been held longer than TAPSTKRLD; bit 4. -/
  | tapStky
  /-- New tap tempo value in TAPTEMPO; bit 3. -/
  | newTt
  /-- Tap button release event; bit 2. -/
  | tapRe
  /-- Tap button push event; bit 1. -/
  | tapPe
  /-- Debounced tap button level, 0 if pressed; bit 0. -/
  | tapDb
deriving DecidableEq, Repr

/-- The bit of FLAGS that holds a flag (R41). -/
def flagBit : Flag → Nat
  | .outOflo n => 12 + n.val
  | .inOflo n => 8 + n.val
  | .tb2ntb1 => 5
  | .tapStky => 4
  | .newTt => 3
  | .tapRe => 2
  | .tapPe => 1
  | .tapDb => 0

/-- The mask the assembler reserves for a flag (R41, R155; TAPDB has no word, its mask is 0x0001). -/
def flagMask (f : Flag) : Half := BitVec.ofNat 16 (2 ^ flagBit f)

/-- The flag as the hardware drives it now. -/
def flagSet (s : State) (f : Flag) : Bool := s.flags.getLsbD (flagBit f)

/-- The word `x[17]`: the 16 flag bits under an upper half that the spec does not state (R35, D11). -/
def flagsWord (s : State) : Word := (Config.undefinedBits s.drawIx).extractLsb 31 16 ++ s.flags

end Sys2Proof.Machine
end

