-- ==== Sys2Proof/Machine/Operands.lean ====
section
/-! DEFINITION. How an operand becomes a value (30_encoding.md R127-R130, 20_memory.md R84-R88), and the fixed-point
arithmetic on values (00_scope.md R9-R12; 40_math_arith.md; 41_math_mac.md R230, R231, R248; 46_extended.md R351, R366).
Arithmetic is exact over the integers and narrowed once at the end. -/

namespace Sys2Proof.Machine

/-! ### Saturation (R10) -/

/-- `sat32(z)`. -/
def sat32 (z : Int) : Word :=
  if 2147483647 < z then 0x7FFFFFFF#32
  else if z < -2147483648 then 0x80000000#32
  else BitVec.ofInt 32 z

/-- `sat64(z)`. -/
def sat64 (z : Int) : Long :=
  if 9223372036854775807 < z then 0x7FFFFFFFFFFFFFFF#64
  else if z < -9223372036854775808 then 0x8000000000000000#64
  else BitVec.ofInt 64 z

/-! ### Operand forms -/

/-- `sext_32(imm16)`, ADDI's immediate (R127 a). -/
def immSigned (imm : Half) : Word := imm.signExtend 32

/-- `{v, 0x0000}`: an S.15 immediate or a delay word as S.31, WRDLD's immediate (R127 b, c; R84). -/
def upperHalf (v : Half) : Word := v ++ 0#16

/-- `{0x0000, imm16}`, the immediate of ORI, ANDI, XORI (R127 d). -/
def immUnsigned (imm : Half) : Word := 0#16 ++ imm

/-- `{k8, 0x000000}`, the S.7 coefficient as S.31 (R130). -/
def coefficient (k : BitVec 8) : Word := k ++ 0#24

/-- The half a store of a 32-bit value keeps, `v[31:16]` (R84). -/
def storedHalf (v : Word) : Half := v.extractLsb 31 16

/-- A register's shift count, `v[4:0]` (R210). -/
def shiftCount (v : Word) : BitVec 5 := v.extractLsb 4 0

/-- A register's delay address, `v[14:0]` (R87). -/
def indexAddr (v : Word) : DAddr := v.extractLsb 14 0

/-- A register's MREG number, `v[6:0]` (R87, R266). -/
def indexMreg (v : Word) : Fin 128 := (v.extractLsb 6 0).toFin

/-- INTERP's sample index, `v[30:16]` (R366). -/
def interpIndex (v : Word) : DAddr := v.extractLsb 30 16

/-- INTERP's coefficient: a 0 sign, `v[15:0]`, fifteen zeros (R366). -/
def interpCoef (v : Word) : Word := 0#1 ++ v.extractLsb 15 0 ++ 0#15

/-- `H16(v)` (R248): shifted inside 16 bits and then padded, or padded first where MACH16_LOSSLESS holds (D18). -/
def headroom16 (p : Params) (v : Half) : Word :=
  if p.mach16Lossless then (upperHalf v).sshiftRight 3 else upperHalf (v.sshiftRight 3)

/-- `v >>s 3`, MACHRR's second operand (R236). -/
def headroom32 (v : Word) : Word := v.sshiftRight 3

/-! ### Arithmetic of part 1 (40_math_arith.md) -/

/-- ABS_MIN, the magnitude of 0x80000000 (R201): one of two values, which one is open (D15, log 10). -/
def absMin : Word := if Config.absMinSaturates then 0x7FFFFFFF#32 else 0x80000000#32

/-- ABS (R201). -/
def absWord (v : Word) : Word :=
  if 0 ≤ v.toInt then v else if v = 0x80000000#32 then absMin else 0#32 - v

/-- The saturating sum of ADDS and ADDSI (R205, R206). -/
def addSat (a b : Word) : Word := sat32 (a.toInt + b.toInt)

/-- The saturating difference of SUBS (R208). -/
def subSat (a b : Word) : Word := sat32 (a.toInt - b.toInt)

/-- `v << n` (R209, R210). -/
def shiftLeft (v : Word) (n : BitVec 5) : Word := v <<< n.toNat

/-- The saturating left shift of SLS and SLSR (R211, D28). -/
def shiftLeftSat (v : Word) (n : BitVec 5) : Word := sat32 (v.toInt * 2 ^ n.toNat)

/-- `v >>u n` (R213, R214). -/
def shiftRight (v : Word) (n : BitVec 5) : Word := v >>> n.toNat

/-- `v >>s n` (R215, R216). -/
def shiftRightArith (v : Word) (n : BitVec 5) : Word := v.sshiftRight n.toNat

/-! ### Arithmetic of part 2 (41_math_mac.md) -/

/-- `FracMul(a, b)`: the S.63 product of two S.31 values (R230, D16). -/
def fracMul (a b : Word) : Long := sat64 (2 * a.toInt * b.toInt)

/-- `MacAcc(acc, a, b)` (R231); whether the product saturates on its own is MAC_PRESAT (D17). -/
def macAcc (p : Params) (acc : Long) (a b : Word) : Long :=
  if p.macPresat then sat64 (acc.toInt + (fracMul a b).toInt) else sat64 (acc.toInt + 2 * a.toInt * b.toInt)

/-- The 32 MSBs of the fractional product (R240, R241). -/
def mulUpper (a b : Word) : Word := (fracMul a b).extractLsb 63 32

/-- NEG (R242). -/
def negSat (v : Word) : Word := sat32 (0 - v.toInt)

/-- SAT64: the upper half of ACC64 times 8, saturated (R291, D28). -/
def sat64Upper (acc : Long) : Word := sat32 ((acc.extractLsb 63 32).toInt * 8)

/-! ### Arithmetic of the extended operations (46_extended.md) -/

/-- `APMAC(c, a, b)` (R351, D20): the product truncated toward minus infinity, the sum saturated. -/
def apmac (p : Params) (c a b : Word) : Word :=
  if p.apmacDefault then sat32 (c.toInt + a.toInt * b.toInt / 2147483648) else Config.apmacOpen c a b

/-- `APNEG(k)` (R351, D20). -/
def apneg (p : Params) (k : Word) : Word :=
  if p.apnegDefault then sat32 (0 - k.toInt) else Config.apnegOpen k

/-- `INTERP_FN(s0, s1, k)` (R366, D22). -/
def interpFn (p : Params) (s0 s1 k : Word) : Word :=
  if p.interpDefault then sat32 (s0.toInt + (s1.toInt - s0.toInt) * k.toInt / 2147483648)
  else Config.interpOpen s0 s1 k

end Sys2Proof.Machine
end

