-- ==== Sys2Proof/Machine/Ops.lean ====
section
/-! DEFINITION. The named operations over registers and memories that the meanings are written with: register access
(00_scope.md R13), delay access (R14, 20_memory.md R84-R88), SFR access (10_state.md R45, R46), the program counter (R40,
45_jumps.md R330), fetching. The hardware takes no exception and returns from none (60_exceptions.md R400, R405, R406);
`modelFault` is the one place where a ModelFault stops a meaning, and nothing is saved (R403). -/

namespace Sys2Proof.Machine

/-! ### Updates of one piece of state -/

/-- `x[n] <- v` for R0-R15. -/
def State.setCore (s : State) (n : Fin 16) (v : Word) : State := { s with core := s.core.set n.val v n.isLt }

/-- `ACC32 <- v`. -/
def State.setAcc32 (s : State) (v : Word) : State := { s with acc32 := v }

/-- `ACC64 <- v`. -/
def State.setAcc64 (s : State) (v : Long) : State := { s with acc64 := v }

/-- `MR[n] <- v`. -/
def State.setMreg (s : State) (n : Fin 128) (v : Word) : State := { s with mreg := s.mreg.set n.val v n.isLt }

/-- `pc <- t`. -/
def State.setPc (s : State) (t : Nat) : State := { s with pc := t }

/-- OUTn takes a value in the running iteration (R46, R447). -/
def State.setOut (s : State) (n : Fin 4) (v : Word) : State :=
  { s with out := s.out.set n.val v n.isLt, outWritten := s.outWritten.set n.val true n.isLt }

/-- The R/W SFRs take new contents. -/
def State.setCtl (s : State) (c : Ctl) : State := { s with ctl := c }

/-- `MemWrite(pa, 1, v)` (R14). -/
def State.setDelay (s : State) (pa : DAddr) (v : Half) : State := { s with delay := Memory.write s.delay pa.toNat v }

/-- `user[u] <- b` (R52, R365). -/
def State.setUser (s : State) (u : Fin 2) (b : Bool) : State := { s with user := s.user.set u.val b u.isLt }

/-- `pc <- pc + 1`, the end of every instruction but a taken jump (R200 f). -/
def State.advance (s : State) : State := s.setPc (s.pc + 1)

/-! ### Reads -/

/-- `x[c]` (R13, R31): all reads of one instruction see the state before it, FLAGS read twice among them (R200 g, log 25). -/
def State.reg (s : State) (c : CReg) : Word :=
  match c with
  | .r n => s.core[n]
  | .acc32 => s.acc32
  | .flags => flagsWord s

/-- `Rel(a) = (a + DCNT) mod 2^15` (R85, D36). -/
def State.rel (s : State) (a : DAddr) : DAddr := a + s.dcnt

/-- `MemRead(pa, 1)`: the delay word at a physical address (R14). -/
def State.delayAt (s : State) (pa : DAddr) : Half := Memory.read s.delay pa.toNat

/-- `DRead(pa) = {MemRead(pa, 1), 0x0000}` (R84). -/
def State.dread (s : State) (pa : DAddr) : Word := upperHalf (s.delayAt pa)

/-- `DRead(Rel(a))`. -/
def State.dreadRel (s : State) (a : DAddr) : Word := s.dread (s.rel a)

/-! ### Ends of a meaning -/

/-- `raise ModelFault(reason)` (R15, R403): precise, and nothing is saved. -/
def modelFault (f : Fault) : Out := .fault f

/-- The instruction ends: the new state with `pc <- pc + 1`. -/
def done (s : State) : Out := .next s.advance

/-- The result goes to ACC32 (R200 c). -/
def toAcc32 (s : State) (v : Word) : Out := done (s.setAcc32 v)

/-- The result goes to ACC64. -/
def toAcc64 (s : State) (v : Long) : Out := done (s.setAcc64 v)

/-- The result goes to a CREGNA destination: FLAGS raises FlagsAsDest before any effect (R35, R260). -/
def toDest (s : State) (c : CReg) (v : Word) : Out :=
  match c with
  | .r n => done (s.setCore n v)
  | .acc32 => done (s.setAcc32 v)
  | .flags => modelFault .flagsAsDest

/-- A store of the upper half of a value at a physical delay address (R84). -/
def toDelay (s : State) (pa : DAddr) (v : Word) : Out := done (s.setDelay pa (storedHalf v))

/-! ### SFR access -/

/-- `SfrRead(n)` (R45): none for OUT0-OUT3. Bits the table does not give are free (D11, log 5); the sign of POTn and
POTn_SMTH is 0. -/
def State.sfrRead (s : State) (n : Sfr) : Option Word :=
  match n with
  | .adc k => some s.env.adc[k]
  | .out _ => none
  | .pin => some ((Config.undefinedBits s.drawIx).extractLsb 31 16 ++ s.env.pin)
  | .switch => some ((Config.undefinedBits s.drawIx).extractLsb 31 16 ++ s.env.switch)
  | .potK k => some ((Config.undefinedBits s.drawIx).extractLsb 31 5 ++ s.ctl.potK[k])
  | .pot k => some (0#1 ++ s.env.pot[k] ++ (Config.undefinedBits s.drawIx).extractLsb 18 0)
  | .potSmth k => some (0#1 ++ s.env.potSmth[k])
  | .lfoF k => some s.ctl.lfoF[k]
  | .rampF k => some s.ctl.rampF[k]
  | .lfoSin k => some s.env.lfoSin[k]
  | .lfoCos k => some s.env.lfoCos[k]
  | .rampOut k => some s.env.rampOut[k]
  | .maxTempo => some s.ctl.maxTempo
  | .tapTempo => some s.tapTempo
  | .sampleCnt => some s.sampleCnt
  | .noise => some s.env.noise
  | .bootStat => some s.env.bootStat

/-- `SfrWrite(n, v)` (R46): none for a read-only SFR; POTn_K keeps the 5 LSBs. -/
def State.sfrWrite (s : State) (n : Sfr) (v : Word) : Option State :=
  match n with
  | .out k => some (s.setOut k v)
  | .potK k => some (s.setCtl { s.ctl with potK := s.ctl.potK.set k.val (v.extractLsb 4 0) k.isLt })
  | .lfoF k => some (s.setCtl { s.ctl with lfoF := s.ctl.lfoF.set k.val v k.isLt })
  | .rampF k => some (s.setCtl { s.ctl with rampF := s.ctl.rampF.set k.val v k.isLt })
  | .maxTempo => some (s.setCtl { s.ctl with maxTempo := v })
  | .adc _ | .pin | .switch | .pot _ | .potSmth _ | .lfoSin _ | .lfoCos _ | .rampOut _
  | .tapTempo | .sampleCnt | .noise | .bootStat => none

/-! ### Jumps (R330) -/

/-- JUMP_BIAS as a number (R330 b, D3). -/
def jumpBias (p : Params) : Nat := if p.jumpBias then 1 else 0

/-- A jump's target, `pc + JUMP_BIAS + offset` (R330 b). -/
def State.jumpTarget (s : State) (offset : BitVec 12) : Nat := s.pc + jumpBias s.par + offset.toNat

/-- Every jump: the range check first, whether or not the condition holds (R330 d), then the condition. -/
def jumpIf (s : State) (taken : Bool) (offset : BitVec 12) : Out :=
  if s.pc < s.jumpTarget offset ∧ s.jumpTarget offset < s.progLen then
    .next (s.setPc (if taken then s.jumpTarget offset else s.pc + 1))
  else modelFault .jumpOutOfRange

/-! ### All-pass halves (R352-R359) -/

/-- The A half: `ACC32 <- APMAC(ACC32, D, K); R15 <- D`. -/
def allPassA (s : State) (d k : Word) : Out :=
  done ((s.setAcc32 (apmac s.par s.acc32 d k)).setCore 15 d)

/-- ACC32 of the B half: `APMAC(R15, ACC32, K)`. -/
def allPassB (s : State) (k : Word) : Word := apmac s.par (s.reg .param0) s.acc32 k

/-- The B half with a delay word: `MemWrite(pa, 1, ACC32[31:16])`, both from the old ACC32. -/
def allPassBDelay (s : State) (pa : DAddr) (k : Word) : Out :=
  done ((s.setDelay pa (storedHalf s.acc32)).setAcc32 (allPassB s k))

/-! ### Fetching (R138, R449) -/

/-- The ModelFault of a rejected word. -/
def rejectFault : Reject → Fault
  | .reservedBits => .reservedBits
  | .illegalOpcode => .illegalOpcode
  | .badCoreReg => .badCoreReg
  | .flagsAsDest => .flagsAsDest
  | .badSfr => .badSfr
  | .sfrNotReadable => .sfrNotReadable
  | .sfrNotWritable => .sfrNotWritable

/-- The instruction word at pc. -/
def State.fetch (s : State) : Word := Memory.read s.iram s.pc

/-- The instruction at pc, or the fault of its word. -/
def fetchDecode (s : State) : Except Fault Instr :=
  match decode s.fetch with
  | .ok i => .ok i
  | .error e => .error (rejectFault e)

end Sys2Proof.Machine
end

