-- ==== Sys2Proof/Machine/Arith.lean ====
section
/-! DEFINITION. The meanings of math operations, part 1 (40_math_arith.md): absolute value, accumulator clear, add,
subtract, shifts. Each but CLRACC64 puts its result in ACC32 and nowhere else (R200 c). -/

namespace Sys2Proof.Machine

/-- ABS (R201). -/
def execAbs (c : CReg) (s : State) : Out := toAcc32 s (absWord (s.reg c))

/-- CLRACC64 (R202). -/
def execClracc64 (s : State) : Out := toAcc64 s 0

/-- ADDI (R203): wraps modulo 2^32. -/
def execAddi (c : CReg) (imm : Half) (s : State) : Out := toAcc32 s (s.reg c + immSigned imm)

/-- ADD (R204): wraps modulo 2^32. -/
def execAdd (x y : CReg) (s : State) : Out := toAcc32 s (s.reg x + s.reg y)

/-- ADDS (R205): saturates. -/
def execAdds (x y : CReg) (s : State) : Out := toAcc32 s (addSat (s.reg x) (s.reg y))

/-- ADDSI (R206): saturates. -/
def execAddsi (c : CReg) (imm : Half) (s : State) : Out := toAcc32 s (addSat (s.reg c) (upperHalf imm))

/-- SUB (R207): X minus Y, wraps modulo 2^32. -/
def execSub (x y : CReg) (s : State) : Out := toAcc32 s (s.reg x - s.reg y)

/-- SUBS (R208): X minus Y, saturates. -/
def execSubs (x y : CReg) (s : State) : Out := toAcc32 s (subSat (s.reg x) (s.reg y))

/-- SL (R209). -/
def execSl (c : CReg) (n : BitVec 5) (s : State) : Out := toAcc32 s (shiftLeft (s.reg c) n)

/-- SLR (R210). -/
def execSlr (x y : CReg) (s : State) : Out := toAcc32 s (shiftLeft (s.reg x) (shiftCount (s.reg y)))

/-- SLS (R211). -/
def execSls (c : CReg) (n : BitVec 5) (s : State) : Out := toAcc32 s (shiftLeftSat (s.reg c) n)

/-- SLSR (R212). -/
def execSlsr (x y : CReg) (s : State) : Out := toAcc32 s (shiftLeftSat (s.reg x) (shiftCount (s.reg y)))

/-- SR (R213). -/
def execSr (c : CReg) (n : BitVec 5) (s : State) : Out := toAcc32 s (shiftRight (s.reg c) n)

/-- SRR (R214). -/
def execSrr (x y : CReg) (s : State) : Out := toAcc32 s (shiftRight (s.reg x) (shiftCount (s.reg y)))

/-- SRA (R215). -/
def execSra (c : CReg) (n : BitVec 5) (s : State) : Out := toAcc32 s (shiftRightArith (s.reg c) n)

/-- SRAR (R216). -/
def execSrar (x y : CReg) (s : State) : Out := toAcc32 s (shiftRightArith (s.reg x) (shiftCount (s.reg y)))

end Sys2Proof.Machine
end

