-- ==== Sys2Proof/Machine/Copy.lean ====
section
/-! DEFINITION. The meanings of the copy operations (42_copy.md): one 32-bit value between two of the core registers, the
MREGs and the SFRs, and nothing else (R260). -/

namespace Sys2Proof.Machine

/-- CPY_CC (R261). -/
def execCpyCc (x y : CReg) (s : State) : Out := toDest s x (s.reg y)

/-- CPY_CM (R262). -/
def execCpyCm (c : CReg) (m : Fin 128) (s : State) : Out := toDest s c s.mreg[m]

/-- CPY_CS (R263): FlagsAsDest comes before SfrNotReadable (R403). -/
def execCpyCs (c : CReg) (n : Sfr) (s : State) : Out :=
  match c, s.sfrRead n with
  | .flags, _ => modelFault .flagsAsDest
  | .acc32, none => modelFault .sfrNotReadable
  | .r _, none => modelFault .sfrNotReadable
  | .acc32, some v => toDest s .acc32 v
  | .r k, some v => toDest s (.r k) v

/-- CPY_MC (R264). -/
def execCpyMc (c : CReg) (m : Fin 128) (s : State) : Out := done (s.setMreg m (s.reg c))

/-- CPY_SC (R265). -/
def execCpySc (c : CReg) (n : Sfr) (s : State) : Out :=
  match s.sfrWrite n (s.reg c) with
  | some t => done t
  | none => modelFault .sfrNotWritable

/-- CPY_CMX (R266): the index is the register's low 7 bits. -/
def execCpyCmx (x y : CReg) (s : State) : Out := toDest s x s.mreg[indexMreg (s.reg y)]

end Sys2Proof.Machine
end

