-- ==== Sys2Proof/Machine/Extended.lean ====
section
/-! DEFINITION. The meanings of the extended operations (46_extended.md): the eight all-pass halves, CHR, PITCH, SET,
INTERP, with their implied reads and writes (R367). -/

namespace Sys2Proof.Machine

/-- APA (R352): the coefficient as written. -/
def execApa (k : BitVec 8) (addr : DAddr) (s : State) : Out := allPassA s (s.dreadRel addr) (coefficient k)

/-- APB (R353). -/
def execApb (k : BitVec 8) (addr : DAddr) (s : State) : Out := allPassBDelay s (s.rel addr) (coefficient k)

/-- APRA (R354): the coefficient is negated. -/
def execApra (c : CReg) (addr : DAddr) (s : State) : Out :=
  allPassA s (s.dreadRel addr) (apneg s.par (s.reg c))

/-- APRB (R355): the coefficient as it stands. -/
def execAprb (c : CReg) (addr : DAddr) (s : State) : Out := allPassBDelay s (s.rel addr) (s.reg c)

/-- APRRA (R356): X holds the coefficient, Y the address. -/
def execAprra (x y : CReg) (s : State) : Out :=
  allPassA s (s.dreadRel (indexAddr (s.reg y))) (apneg s.par (s.reg x))

/-- APRRB (R357): X holds the coefficient, Y the address. -/
def execAprrb (x y : CReg) (s : State) : Out := allPassBDelay s (s.rel (indexAddr (s.reg y))) (s.reg x)

/-- APMA (R358): the delay element is the whole MREG. -/
def execApma (c : CReg) (m : Fin 128) (s : State) : Out := allPassA s s.mreg[m] (apneg s.par (s.reg c))

/-- APMB (R359): all 32 bits of ACC32 are stored. -/
def execApmb (c : CReg) (m : Fin 128) (s : State) : Out :=
  done ((s.setMreg m s.acc32).setAcc32 (allPassB s (s.reg c)))

/-- The present output of an LFO, sine or cosine: CHR's hidden input (R363, log 15). -/
def lfoOutput (s : State) (lfo : Fin 4) (w : Wave) : Word :=
  match w with
  | .sin => s.env.lfoSin[lfo]
  | .cos => s.env.lfoCos[lfo]

/-- CHR (R363): R15[31] must be 0; only ACC32 changes (D21, log 15). -/
def execChr (neg : Bool) (lfo : Fin 4) (w : Wave) (addr : DAddr) (s : State) : Out :=
  if (s.reg .param0).getLsbD 31 then modelFault .chrParamBad
  else toAcc32 s (Config.chrFn neg lfo w addr (s.reg .param0) s.dcnt s.delay (lfoOutput s lfo w))

/-- PITCH (R364): only ACC32 changes, no core register is read (D21, log 15). -/
def execPitch (xfade : Fin 4) (blklen : BlockLen) (ramp : Fin 2) (addr : DAddr) (s : State) : Out :=
  toAcc32 s (Config.pitchFn xfade blklen ramp addr s.dcnt s.delay s.env.rampOut[ramp])

/-- SET (R365): the other user bit is unchanged. -/
def execSet (c : CReg) (userbit : Fin 2) (bitnum : Fin 32) (s : State) : Out :=
  done (s.setUser userbit ((s.reg c).getLsbD bitnum.val))

/-- INTERP's first physical address, `(r[30:16] + addr + DCNT) mod 2^15` (R366); the second is the next one. -/
def interpAddr (s : State) (r : Word) (addr : DAddr) : DAddr := s.rel (interpIndex r + addr)

/-- INTERP (R366). -/
def execInterp (c : CReg) (addr : DAddr) (s : State) : Out :=
  toAcc32 s (interpFn s.par (s.dread (interpAddr s (s.reg c) addr)) (s.dread (interpAddr s (s.reg c) addr + 1))
    (interpCoef (s.reg c)))

end Sys2Proof.Machine
end

