-- ==== Sys2Proof/Machine/Jumps.lean ====
section
/-! DEFINITION. The meanings of the six forward jumps (45_jumps.md R330-R336). -/

namespace Sys2Proof.Machine

/-- JGEZ (R331). -/
def execJgez (c : CReg) (offset : BitVec 12) (s : State) : Out := jumpIf s (decide (0 ≤ (s.reg c).toInt)) offset

/-- JNEG (R332). -/
def execJneg (c : CReg) (offset : BitVec 12) (s : State) : Out := jumpIf s (decide ((s.reg c).toInt < 0)) offset

/-- JNZ (R333). -/
def execJnz (c : CReg) (offset : BitVec 12) (s : State) : Out := jumpIf s (decide (s.reg c ≠ 0)) offset

/-- JZ (R334). -/
def execJz (c : CReg) (offset : BitVec 12) (s : State) : Out := jumpIf s (decide (s.reg c = 0)) offset

/-- JZC (R335): the sign is bit 31 (D23). -/
def execJzc (c : CReg) (offset : BitVec 12) (s : State) : Out :=
  jumpIf s ((s.reg c).getLsbD 31 != s.acc32.getLsbD 31) offset

/-- JMP (R336). -/
def execJmp (offset : BitVec 12) (s : State) : Out := jumpIf s true offset

end Sys2Proof.Machine
end

