-- ==== Sys2Proof/Machine/LoadStore.lean ====
section
/-! DEFINITION. The meanings of the load/store operations (43_loadstore.md): the halves of ACC64, the delay RAM, SAT64 and
WRDLD. A single "@" is a relative address, "@@" an absolute one (R85, R86). -/

namespace Sys2Proof.Machine

/-- RDACC64U (R281). -/
def execRdacc64u (c : CReg) (s : State) : Out := toDest s c (s.acc64.extractLsb 63 32)

/-- RDACC64L (R282). -/
def execRdacc64l (c : CReg) (s : State) : Out := toDest s c (s.acc64.extractLsb 31 0)

/-- LDACC64U (R283): the lower half keeps its value. -/
def execLdacc64u (c : CReg) (s : State) : Out := toAcc64 s (s.reg c ++ s.acc64.extractLsb 31 0)

/-- LDACC64L (R284): the upper half keeps its value. -/
def execLdacc64l (c : CReg) (s : State) : Out := toAcc64 s (s.acc64.extractLsb 63 32 ++ s.reg c)

/-- RDDEL (R285). -/
def execRddel (c : CReg) (addr : DAddr) (s : State) : Out := toDest s c (s.dreadRel addr)

/-- WRDEL (R286). -/
def execWrdel (c : CReg) (addr : DAddr) (s : State) : Out := toDelay s (s.rel addr) (s.reg c)

/-- RDDELX (R287). -/
def execRddelx (x y : CReg) (s : State) : Out := toDest s x (s.dreadRel (indexAddr (s.reg y)))

/-- WRDELX (R288): X holds the address, Y the data. -/
def execWrdelx (x y : CReg) (s : State) : Out := toDelay s (s.rel (indexAddr (s.reg x))) (s.reg y)

/-- RDDIRX (R289): DCNT is not added. -/
def execRddirx (x y : CReg) (s : State) : Out := toDest s x (s.dread (indexAddr (s.reg y)))

/-- WRDIRX (R290): X holds the absolute address, Y the data. -/
def execWrdirx (x y : CReg) (s : State) : Out := toDelay s (indexAddr (s.reg x)) (s.reg y)

/-- SAT64 (R291). -/
def execSat64 (c : CReg) (s : State) : Out := toDest s c (sat64Upper s.acc64)

/-- WRDLD (R292). -/
def execWrdld (c : CReg) (imm : Half) (s : State) : Out := toDest s c (upperHalf imm)

end Sys2Proof.Machine
end

