-- ==== Sys2Proof/Machine/Logic.lean ====
section
/-! DEFINITION. The meanings of the logic operations (44_logic.md): bit by bit, the result in ACC32, immediates
zero-extended (R310). -/

namespace Sys2Proof.Machine

/-- INV (R311). -/
def execInv (c : CReg) (s : State) : Out := toAcc32 s (~~~ s.reg c)

/-- OR (R312). -/
def execOr (x y : CReg) (s : State) : Out := toAcc32 s (s.reg x ||| s.reg y)

/-- ORI (R313): the result goes to ACC32, not to the named register (90_conflicts.md C10). -/
def execOri (c : CReg) (imm : Half) (s : State) : Out := toAcc32 s (s.reg c ||| immUnsigned imm)

/-- AND (R314). -/
def execAnd (x y : CReg) (s : State) : Out := toAcc32 s (s.reg x &&& s.reg y)

/-- ANDI (R315). -/
def execAndi (c : CReg) (imm : Half) (s : State) : Out := toAcc32 s (s.reg c &&& immUnsigned imm)

/-- XOR (R316). -/
def execXor (x y : CReg) (s : State) : Out := toAcc32 s (s.reg x ^^^ s.reg y)

/-- XORI (R317). -/
def execXori (c : CReg) (imm : Half) (s : State) : Out := toAcc32 s (s.reg c ^^^ immUnsigned imm)

end Sys2Proof.Machine
end

