-- ==== Sys2Proof/Machine/Mac.lean ====
section
/-! DEFINITION. The meanings of math operations, part 2 (41_math_mac.md): the eight multiply-accumulates, the multiplies,
negate, LOG2, EXP2. The operands of the multiply-accumulates are those of R247. -/

namespace Sys2Proof.Machine

/-- `ACC64 <- MacAcc(ACC64, a, b)` (R231). -/
def accumulate (s : State) (a b : Word) : Out := toAcc64 s (macAcc s.par s.acc64 a b)

/-- MACRR (R232). -/
def execMacrr (x y : CReg) (s : State) : Out := accumulate s (s.reg x) (s.reg y)

/-- MACRI (R233). -/
def execMacri (c : CReg) (imm : Half) (s : State) : Out := accumulate s (s.reg c) (upperHalf imm)

/-- MACRD (R234). -/
def execMacrd (c : CReg) (addr : DAddr) (s : State) : Out := accumulate s (s.reg c) (s.dreadRel addr)

/-- MACID (R235). -/
def execMacid (k : BitVec 8) (addr : DAddr) (s : State) : Out := accumulate s (coefficient k) (s.dreadRel addr)

/-- MACHRR (R236): only Y is shifted. -/
def execMachrr (x y : CReg) (s : State) : Out := accumulate s (s.reg x) (headroom32 (s.reg y))

/-- MACHRI (R237). -/
def execMachri (c : CReg) (imm : Half) (s : State) : Out := accumulate s (s.reg c) (headroom16 s.par imm)

/-- MACHRD (R238). -/
def execMachrd (c : CReg) (addr : DAddr) (s : State) : Out :=
  accumulate s (s.reg c) (headroom16 s.par (s.delayAt (s.rel addr)))

/-- MACHID (R239): only the delay word is shifted. -/
def execMachid (k : BitVec 8) (addr : DAddr) (s : State) : Out :=
  accumulate s (coefficient k) (headroom16 s.par (s.delayAt (s.rel addr)))

/-- MULTRR (R240). -/
def execMultrr (x y : CReg) (s : State) : Out := toAcc32 s (mulUpper (s.reg x) (s.reg y))

/-- MULTRI (R241). -/
def execMultri (c : CReg) (imm : Half) (s : State) : Out := toAcc32 s (mulUpper (s.reg c) (upperHalf imm))

/-- NEG (R242). -/
def execNeg (c : CReg) (s : State) : Out := toAcc32 s (negSat (s.reg c))

/-- LOG2 (R243): LOG2_FN of the operand, for every operand (log 14). -/
def execLog2 (c : CReg) (s : State) : Out := toAcc32 s (Config.log2Fn (s.reg c))

/-- EXP2 (R244): EXP2_FN of a negative operand; bit 31 = 0 raises Exp2NonNegative (log 14). -/
def execExp2 (c : CReg) (s : State) : Out :=
  if (s.reg c).getLsbD 31 then toAcc32 s (Config.exp2Fn (s.reg c)) else modelFault .exp2NonNegative

end Sys2Proof.Machine
end

