-- ==== Sys2Proof/Machine/Dispatch.lean ====
section
/-! DEFINITION. The one dispatch from an instruction to its meaning (30_encoding.md R138 step 6). -/

namespace Sys2Proof.Machine

def exec (i : Instr) (s : State) : Host.Outcome State Fault Refusal :=
  match i with
  | .abs c => Sys2Proof.Machine.execAbs c s
  | .clracc64 => Sys2Proof.Machine.execClracc64 s
  | .addi c imm => Sys2Proof.Machine.execAddi c imm s
  | .add x y => Sys2Proof.Machine.execAdd x y s
  | .adds x y => Sys2Proof.Machine.execAdds x y s
  | .addsi c imm => Sys2Proof.Machine.execAddsi c imm s
  | .sub x y => Sys2Proof.Machine.execSub x y s
  | .subs x y => Sys2Proof.Machine.execSubs x y s
  | .sl c n => Sys2Proof.Machine.execSl c n s
  | .slr x y => Sys2Proof.Machine.execSlr x y s
  | .sls c n => Sys2Proof.Machine.execSls c n s
  | .slsr x y => Sys2Proof.Machine.execSlsr x y s
  | .sr c n => Sys2Proof.Machine.execSr c n s
  | .srr x y => Sys2Proof.Machine.execSrr x y s
  | .sra c n => Sys2Proof.Machine.execSra c n s
  | .srar x y => Sys2Proof.Machine.execSrar x y s
  | .macrr x y => Sys2Proof.Machine.execMacrr x y s
  | .macri c imm => Sys2Proof.Machine.execMacri c imm s
  | .macrd c a => Sys2Proof.Machine.execMacrd c a s
  | .macid k a => Sys2Proof.Machine.execMacid k a s
  | .machrr x y => Sys2Proof.Machine.execMachrr x y s
  | .machri c imm => Sys2Proof.Machine.execMachri c imm s
  | .machrd c a => Sys2Proof.Machine.execMachrd c a s
  | .machid k a => Sys2Proof.Machine.execMachid k a s
  | .multrr x y => Sys2Proof.Machine.execMultrr x y s
  | .multri c imm => Sys2Proof.Machine.execMultri c imm s
  | .neg c => Sys2Proof.Machine.execNeg c s
  | .log2 c => Sys2Proof.Machine.execLog2 c s
  | .exp2 c => Sys2Proof.Machine.execExp2 c s
  | .cpyCc x y => Sys2Proof.Machine.execCpyCc x y s
  | .cpyCm c m => Sys2Proof.Machine.execCpyCm c m s
  | .cpyCs c n => Sys2Proof.Machine.execCpyCs c n s
  | .cpyMc c m => Sys2Proof.Machine.execCpyMc c m s
  | .cpySc c n => Sys2Proof.Machine.execCpySc c n s
  | .cpyCmx x y => Sys2Proof.Machine.execCpyCmx x y s
  | .rdacc64u c => Sys2Proof.Machine.execRdacc64u c s
  | .rdacc64l c => Sys2Proof.Machine.execRdacc64l c s
  | .ldacc64u c => Sys2Proof.Machine.execLdacc64u c s
  | .ldacc64l c => Sys2Proof.Machine.execLdacc64l c s
  | .rddel c a => Sys2Proof.Machine.execRddel c a s
  | .wrdel c a => Sys2Proof.Machine.execWrdel c a s
  | .rddelx x y => Sys2Proof.Machine.execRddelx x y s
  | .wrdelx x y => Sys2Proof.Machine.execWrdelx x y s
  | .rddirx x y => Sys2Proof.Machine.execRddirx x y s
  | .wrdirx x y => Sys2Proof.Machine.execWrdirx x y s
  | .sat64 c => Sys2Proof.Machine.execSat64 c s
  | .wrdld c imm => Sys2Proof.Machine.execWrdld c imm s
  | .inv c => Sys2Proof.Machine.execInv c s
  | .or x y => Sys2Proof.Machine.execOr x y s
  | .ori c imm => Sys2Proof.Machine.execOri c imm s
  | .and x y => Sys2Proof.Machine.execAnd x y s
  | .andi c imm => Sys2Proof.Machine.execAndi c imm s
  | .xor x y => Sys2Proof.Machine.execXor x y s
  | .xori c imm => Sys2Proof.Machine.execXori c imm s
  | .jgez c o => Sys2Proof.Machine.execJgez c o s
  | .jneg c o => Sys2Proof.Machine.execJneg c o s
  | .jnz c o => Sys2Proof.Machine.execJnz c o s
  | .jz c o => Sys2Proof.Machine.execJz c o s
  | .jzc c o => Sys2Proof.Machine.execJzc c o s
  | .jmp o => Sys2Proof.Machine.execJmp o s
  | .apa k a => Sys2Proof.Machine.execApa k a s
  | .apb k a => Sys2Proof.Machine.execApb k a s
  | .apra c a => Sys2Proof.Machine.execApra c a s
  | .aprb c a => Sys2Proof.Machine.execAprb c a s
  | .aprra x y => Sys2Proof.Machine.execAprra x y s
  | .aprrb x y => Sys2Proof.Machine.execAprrb x y s
  | .apma c m => Sys2Proof.Machine.execApma c m s
  | .apmb c m => Sys2Proof.Machine.execApmb c m s
  | .chr neg lfo w a => Sys2Proof.Machine.execChr neg lfo w a s
  | .pitch x l r a => Sys2Proof.Machine.execPitch x l r a s
  | .set c u n => Sys2Proof.Machine.execSet c u n s
  | .interp c a => Sys2Proof.Machine.execInterp c a s

end Sys2Proof.Machine
end

