-- ==== Sys2Proof/Machine/Loader.lean ====
section
/-! DEFINITION. The agents beside the core (00_scope.md R21): the hardware that drives FLAGS and the read-only SFRs, the
sample clock (70_reset_and_hazards.md R445-R447), the program loader (R440). Clock and loader act between two iterations
only (R448). -/

namespace Sys2Proof.Machine

/-- The hardware drives new values into FLAGS and the read-only SFRs but TAPTEMPO, so that every instruction reads a fresh
draw (R42, R45, D12). The step counter moves on. -/
def State.driveInputs (s : State) : State :=
  { s with
    flags := Config.flagBits (s.drawIx + 1)
    env := Config.environment (s.drawIx + 1)
    drawIx := s.drawIx + 1 }

/-- The hardware drives FLAGS and all read-only SFRs; TAPTEMPO keeps its value where the unit has measured nothing new (R424,
log 8). -/
def State.drive (s : State) : State :=
  { s.driveInputs with tapTempo := (Config.tapMeasured (s.drawIx + 1)).getD s.tapTempo }

/-- What DAC channel `k` outputs for the period that ends: the last value written to OUTk during its iteration; with no
write the output is unspecified (R447, D29). -/
def State.periodOutput (s : State) (k : Fin 4) : Word :=
  if s.outWritten[k] then s.out[k] else Config.undrivenOutput s.drawIx k

/-- The sample tick (R445), between two iterations. -/
def State.tick (s : State) : State :=
  { s with
    dcnt := s.dcnt - 1
    sampleCnt := s.sampleCnt + 1
    dac := Vector.ofFn fun k => some (s.periodOutput k)
    outWritten := Vector.replicate 4 false
    pc := 0 }

/-! ### Program change (R440) -/

/-- The core registers with the `.CREG` entries applied. -/
def presetCore (es : List (Fin 16 × Word)) (v : Vector Word 16) : Vector Word 16 :=
  es.foldl (fun v e => v.set e.1.val e.2 e.1.isLt) v

/-- The MREGs with the `.MREG` entries applied. -/
def presetMreg (es : List (Fin 128 × Word)) (v : Vector Word 128) : Vector Word 128 :=
  es.foldl (fun v e => v.set e.1.val e.2 e.1.isLt) v

/-- One `.SREG` entry: the register takes the entry's bits, LSB aligned; one too wide for a narrow register leaves its low bits
there, as a write does (D11; DESIGN CHOICE, log 33). -/
def presetSfr (s : State) (e : Settable × Word) : State :=
  match e.1 with
  | .potK k => { s with ctl := { s.ctl with potK := s.ctl.potK.set k.val (e.2.extractLsb 4 0) k.isLt } }
  | .lfoF k => { s with ctl := { s.ctl with lfoF := s.ctl.lfoF.set k.val e.2 k.isLt } }
  | .rampF k => { s with ctl := { s.ctl with rampF := s.ctl.rampF.set k.val e.2 k.isLt } }
  | .maxTempo => { s with ctl := { s.ctl with maxTempo := e.2 } }
  | .tapTempo => { s with tapTempo := e.2 }
  | .tapStkRld => { s with cfg := { s.cfg with tapStkRld := e.2.extractLsb 15 0 } }
  | .tapDbRld => { s with cfg := { s.cfg with tapDbRld := e.2.extractLsb 15 0 } }
  | .swDbRld => { s with cfg := { s.cfg with swDbRld := e.2.extractLsb 15 0 } }
  | .prgDbRld => { s with cfg := { s.cfg with prgDbRld := e.2.extractLsb 15 0 } }
  | .oflRld => { s with cfg := { s.cfg with oflRld := e.2.extractLsb 15 0 } }

/-- The machine after a program change but for the `.SREG` entries: what the spec leaves unspecified is free (R440, R56,
log 9); ACC64 keeps its value; the outputs are muted. The samples of the iteration that ends at the program change are never put
out, and the muting lasts until the first tick: of both the spec says nothing (N38; DESIGN CHOICE, log 21). -/
def State.changed (s : State) (p : Program) : State :=
  { s with
    iram := Memory.load s.iram 0 p.text
    progLen := p.text.length
    delay := []
    acc32 := 0
    sampleCnt := 0
    core := presetCore p.header.creg (Config.unsetCore s.drawIx)
    mreg := presetMreg p.header.mreg (Config.unsetMreg s.drawIx)
    ctl := Config.unsetCtl s.drawIx
    cfg := Config.unsetCfg s.drawIx
    tapTempo := Config.unsetTapTempo s.drawIx
    out := Config.unsetOut s.drawIx
    outWritten := Vector.replicate 4 false
    dac := Vector.replicate 4 none
    user := Config.unsetUser s.drawIx
    dcnt := Config.dcntInit s.drawIx
    pc := 0
    pending := none }

/-- The program change (R440). -/
def State.programChange (s : State) (p : Program) : State :=
  p.header.sreg.foldl presetSfr (s.changed p)

/-- A program is selected from outside; it is loaded when the running iteration has ended (R440, R448). -/
def State.select (s : State) (p : Program) : State := { s with pending := some p }

/-- What happens when no instruction is left to run (R446): a selected program is loaded, or the sample clock ticks; the
hardware drives its registers anew. After a load TAPTEMPO still holds its header value, as R56 has it at the start of the first
iteration; the unit can measure from the first instruction on (log 8). -/
def boundary (s : State) : Out :=
  match s.pending with
  | some p => if p.wf then .next (s.programChange p).driveInputs else .refused .badProgram
  | none => if s.progLen = 0 then .refused .noProgram else .next s.tick.drive

/-- The hardware drives its registers after every instruction that has a next state. -/
def thenDrive (o : Out) : Out :=
  match o with
  | .next s => .next s.drive
  | .fault f => .fault f
  | .refused r => .refused r

/-- A state in which the next step fetches `w`: the word is put at pc, and where no program covers pc the program becomes
the whole instruction RAM, so that a jump finds a target in it (log 16). -/
def State.placeWord (s : State) (w : Word) : State :=
  if s.pc < s.progLen then { s with iram := Memory.write s.iram s.pc w }
  else if s.pc < 1024 then { s with iram := Memory.write s.iram s.pc w, progLen := 1024 }
  else { s with iram := Memory.write s.iram 0 w, progLen := 1024, pc := 0 }

end Sys2Proof.Machine
end

