-- ==== Sys2Proof/Machine/Step.lean ====
section
/-! DEFINITION. One step of the machine (70_reset_and_hazards.md R449): an instruction while pc is inside the program, else
the boundary between two iterations; after either the hardware drives its registers anew. -/

namespace Sys2Proof.Machine

/-- One step. -/
def step (s : State) : Host.Outcome State Fault Refusal :=
  if s.pc < s.progLen then
    match fetchDecode s with
    | .ok i => thenDrive (exec i s)
    | .error f => .fault f
  else boundary s

/-- The state in which the next step fetches and runs the instruction of these bits, numbered as spec/opcode_table.json
numbers them (log 16). -/
def State.withFetchWord (s : State) (nbits w : Nat) : State := s.placeWord (BitVec.ofNat 32 (w % 2 ^ nbits))

end Sys2Proof.Machine
end

