-- ==== Sys2Proof/Machine/Assembler.lean ====
section
/-! DEFINITION. The assembler as far as the spec describes it (00_scope.md R4; 30_encoding.md R146-R163): reserved words
and their values, how a value becomes a field, what a name stands for, how a statement becomes an instruction, and what the
directives do to the symbols, the aliases, the delay blocks and the program header. The text itself is taken as already split
into a mnemonic, operands and values: the source gives no grammar (R146). What the spec leaves open here is listed in log 27
(values left free) and in log 30 to 33 (points the model settles). -/

namespace Sys2Proof.Machine

/-! ### Reserved words (R153-R155) -/

/-- The words of CHR, PITCH and SET (R155). -/
def selectorWords : List (String × Nat) :=
  [("LFO0", 0x0000), ("LFO1", 0x0002), ("LFO2", 0x0004), ("LFO3", 0x0006), ("SIN", 0x0000), ("COS", 0x0001),
   ("POS", 0x0000), ("NEG", 0x0008), ("RMP0", 0x0000), ("RMP1", 0x0001), ("L512", 0x0000), ("L1024", 0x0004),
   ("L2048", 0x0008), ("L4096", 0x000C), ("XF0", 0x0000), ("XF1", 0x0010), ("XF2", 0x0020), ("XF3", 0x0030),
   ("USER0", 0x0000), ("USER1", 0x0020)]

/-- The masks of FLAGS (R155). -/
def flagsWords : List (String × Nat) :=
  [("OUT3OFLO", 0x8000), ("OUT2OFLO", 0x4000), ("OUT1OFLO", 0x2000), ("OUT0OFLO", 0x1000), ("IN3OFLO", 0x0800),
   ("IN2OFLO", 0x0400), ("IN1OFLO", 0x0200), ("IN0OFLO", 0x0100), ("TB2NTB1", 0x0020), ("TAPSTKY", 0x0010),
   ("NEWTT", 0x0008), ("TAPRE", 0x0004), ("TAPPE", 0x0002)]

/-- The switch masks, whose register the source does not name (R155). -/
def switchWords : List (String × Nat) :=
  [("SW0", 0x0001), ("SW1", 0x0002), ("SW2", 0x0004), ("SW3", 0x0008), ("SW4", 0x0010), ("SW0RE", 0x0020),
   ("SW1RE", 0x0040), ("SW2RE", 0x0080), ("SW3RE", 0x0100), ("SW4RE", 0x0200), ("SW0PE", 0x0400), ("SW1PE", 0x0800),
   ("SW2PE", 0x1000), ("SW3PE", 0x2000), ("SW4PE", 0x4000), ("TAP", 0x0040)]

/-- The masks of BOOTSTAT and the PR words (R155). -/
def bootWords : List (String × Nat) :=
  [("PLLRANGE0", 0x0001), ("PLLRANGE1", 0x0002), ("MNS", 0x0004), ("I2CA0", 0x0008), ("I2CA1", 0x0010),
   ("I2CA2", 0x0020), ("I2CA3", 0x0040), ("I2CA4", 0x0080), ("I2CA5", 0x0100), ("I2CA6", 0x0200), ("PR0", 0x0001),
   ("PR1", 0x0002), ("PR2", 0x0004), ("PR3", 0x0008), ("PR4", 0x0010), ("PR5", 0x0020), ("PR6", 0x0040),
   ("PR7", 0x0080), ("PR8", 0x0100), ("PR9", 0x0200), ("PR10", 0x0400), ("PR11", 0x0800), ("PR12", 0x1000),
   ("PR13", 0x2000), ("PR14", 0x4000), ("PR15", 0x8000)]

/-- Every reserved word that is a number to the assembler (R155). -/
def reservedValues : List (String × Nat) := selectorWords ++ flagsWords ++ switchWords ++ bootWords

/-- The reserved word of a core register (R153). -/
def coreWord : CReg → String
  | .r n => "R" ++ toString n.val
  | .acc32 => "ACC32"
  | .flags => "FLAGS"

/-- The reserved word of an MREG (R153). -/
def mregWord (m : Fin 128) : String := "MR" ++ toString m.val

/-- The reserved word of an SFR (R154, R44). -/
def sfrWord : Sfr → String
  | .adc n => "IN" ++ toString n.val
  | .out n => "OUT" ++ toString n.val
  | .pin => "PIN"
  | .switch => "SWITCH"
  | .potK n => "POT" ++ toString n.val ++ "_K"
  | .pot n => "POT" ++ toString n.val
  | .potSmth n => "POT" ++ toString n.val ++ "_SMTH"
  | .lfoF n => "LFO" ++ toString n.val ++ "_F"
  | .rampF n => "RAMP" ++ toString n.val ++ "_F"
  | .lfoSin n => "LFO" ++ toString n.val ++ "_S"
  | .lfoCos n => "LFO" ++ toString n.val ++ "_C"
  | .rampOut n => "RAMP" ++ toString n.val ++ "_R"
  | .maxTempo => "MAXTEMPO"
  | .tapTempo => "TAPTEMPO"
  | .sampleCnt => "SAMPLECNT"
  | .noise => "NOISE"
  | .bootStat => "BOOTSTAT"

/-- The five configuration registers, which have a name and no number (R154, R47). -/
inductive ConfigName where
  | tapStkRld
  | tapDbRld
  | swDbRld
  | prgDbRld
  | oflRld
deriving DecidableEq, Repr

/-- The reserved word of a configuration register (R154). -/
def configWord : ConfigName → String
  | .tapStkRld => "TAPSTKRLD"
  | .tapDbRld => "TAPDBRLD"
  | .swDbRld => "SWDBRLD"
  | .prgDbRld => "PRGDBRLD"
  | .oflRld => "OFLRLD"

/-- A register as a program names it, each in one way (R153, R154, R157). -/
inductive RegName where
  | core (c : CReg)
  | mreg (m : Fin 128)
  | sfr (n : Sfr)
  | config (n : ConfigName)
deriving DecidableEq, Repr

/-- The reserved word of a register. -/
def RegName.word : RegName → String
  | .core c => coreWord c
  | .mreg m => mregWord m
  | .sfr n => sfrWord n
  | .config n => configWord n

/-- Every register with a reserved word (R153, R154). -/
def registers : List RegName :=
  (List.finRange 16).map (fun n => .core (.r n)) ++ [.core .acc32, .core .flags]
    ++ (List.range 49).filterMap (fun k => (Sfr.ofNat k).map .sfr)
    ++ [.config .tapStkRld, .config .tapDbRld, .config .swDbRld, .config .prgDbRld, .config .oflRld]
    ++ (List.finRange 128).map .mreg

/-- A word in capitals: mnemonics and register names are read in either case (R146). -/
def capitals (w : String) : String := String.ofList (w.toList.map Char.toUpper)

/-- The register that a word is the reserved word of. -/
def registerWord (w : String) : Option RegName := registers.find? fun r => r.word == capitals w

/-- What `.SREG` may set (R161): the settable SFRs of R44 and the configuration registers. -/
def RegName.settable : RegName → Option Settable
  | .sfr (.potK n) => some (.potK n)
  | .sfr (.lfoF n) => some (.lfoF n)
  | .sfr (.rampF n) => some (.rampF n)
  | .sfr .maxTempo => some .maxTempo
  | .sfr .tapTempo => some .tapTempo
  | .config .tapStkRld => some .tapStkRld
  | .config .tapDbRld => some .tapDbRld
  | .config .swDbRld => some .swDbRld
  | .config .prgDbRld => some .prgDbRld
  | .config .oflRld => some .oflRld
  | .core _ | .mreg _ | .sfr _ => none

/-- The words a program may not take for a name of its own: those of the registers, ACC64, and the words with a value
(R153-R155). That the assembler refuses such a name is DEDUCED from "reserved" (log 31). -/
def reserved (w : String) : Bool :=
  (registerWord w).isSome || capitals w == "ACC64" || (reservedValues.lookup w).isSome

/-! ### Values (R148-R150) -/

/-- A value as the source writes it (R148, R156). -/
inductive Expr where
  | num (v : Rat)
  | name (s : String)
  | add (a b : Expr)
  | sub (a b : Expr)
  | mul (a b : Expr)
  | div (a b : Expr)
  | pow (a b : Expr)
  /-- The bar that joins reserved words into one field value (R148). -/
  | bar (a b : Expr)
  /-- The `.u` suffix (R150). -/
  | upper (a : Expr)
  /-- The `.l` suffix (R150). -/
  | lower (a : Expr)
deriving DecidableEq, Repr

/-- The integer part of a value, its fraction truncated (R149, R159). -/
def intPart (v : Rat) : Int := v.num.tdiv v.den

/-- A 32-bit value: the integer part, read as signed or as unsigned (R150, R159). A value that fits neither way is refused;
the spec does not speak of it (DESIGN CHOICE, log 30). -/
def word32 (v : Rat) : Option Word :=
  if -2147483648 ≤ intPart v ∧ intPart v < 4294967296 then some (BitVec.ofInt 32 (intPart v)) else none

/-- `x / y`. A quotient by 0 is no real number and is refused; the spec does not speak of it (DESIGN CHOICE, log 30). -/
def quotient (x y : Rat) : Option Rat := if y = 0 then none else some (x / y)

/-- `x | y`: the bitwise OR of the integer parts. The spec writes the bar between reserved words; a fraction is dropped as for
an integer field (R149) and a negative operand is refused (DESIGN CHOICE, log 30). -/
def barValue (x y : Rat) : Option Rat :=
  if 0 ≤ intPart x ∧ 0 ≤ intPart y then some (((intPart x).toNat ||| (intPart y).toNat : Nat) : Rat) else none

/-- The greatest `m` with `m / 2^n` not above the `q`-th root of `num / den`. -/
def rootFloor (n q num den : Nat) : Nat := Nat.nthRoot q (num * 2 ^ (n * q) / den)

/-- `a ^ (k / q)` for `a > 0` as the assembler computes it (R148): the real power to `n` fraction bits, exact where it has no
more than those, else rounded one of the two ways. Precision and rounding are the assembler's own (95_test_vectors.md section
1.2), free but for the 32 fraction bits of its least precision (DESIGN CHOICE, log 30). -/
def realPower (a : Rat) (k q n : Nat) (up : Bool) : Rat :=
  let num := a.num.toNat ^ k
  let den := a.den ^ k
  let m := rootFloor n q num den
  if m ^ q * den ≠ num * 2 ^ (n * q) ∧ up then ((m + 1 : Nat) : Rat) / ((2 ^ n : Nat) : Rat)
  else (m : Rat) / ((2 ^ n : Nat) : Rat)

/-- `a ^ b` over the reals (R148): exact where `b` is an integer, `realPower` where it is not. A power that is no real number
is refused: 0 to a negative exponent, a negative base to a fractional one (DESIGN CHOICE, log 30). -/
def powValue (a b : Rat) : Option Rat :=
  if b.den = 1 then
    if 0 ≤ b.num then some (a ^ b.num.toNat) else quotient 1 (a ^ b.num.natAbs)
  else if a = 0 then (if 0 < b then some 0 else none)
  else if a < 0 then none
  else some (realPower (if 0 < b then a else a⁻¹) b.num.natAbs b.den (32 + Config.asmPowerBits)
    (Config.asmPowerRoundsUp a b))

/-- The value of an expression under the symbols defined so far; none where a name is unknown or an operation has no value
(R148, R156). `.u` and `.l` give a number from 0 to 65535 in every position: the spec shows them with WRDLD and ORI only and
does not say what they are to a signed or fractional field (R150; DESIGN CHOICE, log 34). -/
def Expr.eval (syms : List (String × Rat)) : Expr → Option Rat
  | .num v => some v
  | .name s => (syms.lookup s).or ((reservedValues.lookup s).map fun n => (n : Rat))
  | .add a b => (a.eval syms).bind fun x => (b.eval syms).map (x + ·)
  | .sub a b => (a.eval syms).bind fun x => (b.eval syms).map (x - ·)
  | .mul a b => (a.eval syms).bind fun x => (b.eval syms).map (x * ·)
  | .div a b => (a.eval syms).bind fun x => (b.eval syms).bind (quotient x)
  | .pow a b => (a.eval syms).bind fun x => (b.eval syms).bind (powValue x)
  | .bar a b => (a.eval syms).bind fun x => (b.eval syms).bind (barValue x)
  | .upper a => ((a.eval syms).bind word32).map fun w => ((w.extractLsb 31 16).toNat : Rat)
  | .lower a => ((a.eval syms).bind word32).map fun w => ((w.extractLsb 15 0).toNat : Rat)

/-- A real in [-1.0, +1.0) as a two's-complement fraction of `w` bits; an error outside that range (R149, R159). An inexact
value is rounded one of the two ways, which one is open (D30); but a value in the range is never rounded up to +1.0, which the
format does not have: of that edge the spec does not speak (DESIGN CHOICE, log 30). -/
def fractionField (w : Nat) (v : Rat) : Option (BitVec w) :=
  if v < -1 ∨ 1 ≤ v then none
  else
    let n := v.num * 2 ^ (w - 1)
    let down := n / (v.den : Int)
    some (BitVec.ofInt w
      (if n % (v.den : Int) ≠ 0 ∧ down + 1 < 2 ^ (w - 1) ∧ Config.asmRoundsUp n v.den then down + 1 else down))

/-- An unsigned integer field: the integer part of the value (R149). One outside the field's range (R163) is refused and not
masked, of which the spec does not speak (DESIGN CHOICE, log 34). -/
def unsignedField (w : Nat) (v : Rat) : Option (BitVec w) :=
  if 0 ≤ intPart v ∧ intPart v < 2 ^ w then some (BitVec.ofInt w (intPart v)) else none

/-- A signed integer field: the integer part of the value (R149, ADDI's SImm16). One outside the field's range (R163) is refused
and not masked (DESIGN CHOICE, log 34). -/
def signedField (w : Nat) (v : Rat) : Option (BitVec w) :=
  if -2 ^ (w - 1) ≤ intPart v ∧ intPart v < 2 ^ (w - 1) then some (BitVec.ofInt w (intPart v)) else none

/-! ### Statements (R137, R163) -/

/-- An operand of a statement, its names resolved. -/
inductive Operand where
  | creg (c : CReg)
  | mreg (m : Fin 128)
  | sfr (n : Sfr)
  | value (v : Rat)
deriving DecidableEq, Repr

/-- CHR's selectors from the R field its words make (R134). -/
def chrFields (r : BitVec 8) (addr : DAddr) : Option Instr :=
  if r.extractLsb 7 4 = 0 then
    some (.chr (r.getLsbD 3) (r.extractLsb 2 1).toFin (waveOf (r.extractLsb 0 0)) addr)
  else none

/-- PITCH's selectors from the R field its words make (R135). -/
def pitchFields (r : BitVec 8) (addr : DAddr) : Option Instr :=
  if r.extractLsb 7 6 = 0 ∧ r.extractLsb 1 1 = 0 then
    some (.pitch (r.extractLsb 5 4).toFin (blockLenOf (r.extractLsb 3 2)) (r.extractLsb 0 0).toFin addr)
  else none

/-- An MREG position: an MREG, or the integer part of a value as its number (R149). -/
def Operand.mregNumber : Operand → Option (Fin 128)
  | .mreg m => some m
  | .value v => (unsignedField 7 v).map BitVec.toFin
  | .creg _ | .sfr _ => none

/-- An SFR position: an SFR, or the integer part of a value as its number, 0 to 48 (R149). -/
def Operand.sfrNumber : Operand → Option Sfr
  | .sfr n => some n
  | .value v => (unsignedField 6 v).bind fun k => Sfr.ofNat k.toNat
  | .creg _ | .mreg _ => none

/-- The instruction of a mnemonic and its operands in the order of the Use line (R163); WRDEL takes either order (D31). A
value in a signed or fractional position is a number there, a `.u` or `.l` value too (DESIGN CHOICE, log 34). -/
def statement : String → List Operand → Option Instr
  | "ABS", [.creg c] => some (.abs c)
  | "CLRACC64", [] => some .clracc64
  | "ADDI", [.creg c, .value v] => (signedField 16 v).map (.addi c)
  | "ADD", [.creg x, .creg y] => some (.add x y)
  | "ADDS", [.creg x, .creg y] => some (.adds x y)
  | "ADDSI", [.creg c, .value v] => (fractionField 16 v).map (.addsi c)
  | "SUB", [.creg x, .creg y] => some (.sub x y)
  | "SUBS", [.creg x, .creg y] => some (.subs x y)
  | "SL", [.creg c, .value v] => (unsignedField 5 v).map (.sl c)
  | "SLR", [.creg x, .creg y] => some (.slr x y)
  | "SLS", [.creg c, .value v] => (unsignedField 5 v).map (.sls c)
  | "SLSR", [.creg x, .creg y] => some (.slsr x y)
  | "SR", [.creg c, .value v] => (unsignedField 5 v).map (.sr c)
  | "SRR", [.creg x, .creg y] => some (.srr x y)
  | "SRA", [.creg c, .value v] => (unsignedField 5 v).map (.sra c)
  | "SRAR", [.creg x, .creg y] => some (.srar x y)
  | "MACRR", [.creg x, .creg y] => some (.macrr x y)
  | "MACRI", [.creg c, .value v] => (fractionField 16 v).map (.macri c)
  | "MACRD", [.creg c, .value v] => (unsignedField 15 v).map (.macrd c)
  | "MACID", [.value k, .value v] => (fractionField 8 k).bind fun k => (unsignedField 15 v).map (.macid k)
  | "MACHRR", [.creg x, .creg y] => some (.machrr x y)
  | "MACHRI", [.creg c, .value v] => (fractionField 16 v).map (.machri c)
  | "MACHRD", [.creg c, .value v] => (unsignedField 15 v).map (.machrd c)
  | "MACHID", [.value k, .value v] => (fractionField 8 k).bind fun k => (unsignedField 15 v).map (.machid k)
  | "MULTRR", [.creg x, .creg y] => some (.multrr x y)
  | "MULTRI", [.creg c, .value v] => (fractionField 16 v).map (.multri c)
  | "NEG", [.creg c] => some (.neg c)
  | "LOG2", [.creg c] => some (.log2 c)
  | "EXP2", [.creg c] => some (.exp2 c)
  | "CPY_CC", [.creg x, .creg y] => some (.cpyCc x y)
  | "CPY_CM", [.creg c, n] => n.mregNumber.map (.cpyCm c)
  | "CPY_CS", [.creg c, n] => n.sfrNumber.map (.cpyCs c)
  | "CPY_MC", [n, .creg c] => n.mregNumber.map (.cpyMc c)
  | "CPY_SC", [n, .creg c] => n.sfrNumber.map (.cpySc c)
  | "CPY_CMX", [.creg x, .creg y] => some (.cpyCmx x y)
  | "RDACC64U", [.creg c] => some (.rdacc64u c)
  | "RDACC64L", [.creg c] => some (.rdacc64l c)
  | "LDACC64U", [.creg c] => some (.ldacc64u c)
  | "LDACC64L", [.creg c] => some (.ldacc64l c)
  | "RDDEL", [.creg c, .value v] => (unsignedField 15 v).map (.rddel c)
  | "WRDEL", [.creg c, .value v] => (unsignedField 15 v).map (.wrdel c)
  | "WRDEL", [.value v, .creg c] => (unsignedField 15 v).map (.wrdel c)
  | "RDDELX", [.creg x, .creg y] => some (.rddelx x y)
  | "WRDELX", [.creg x, .creg y] => some (.wrdelx x y)
  | "RDDIRX", [.creg x, .creg y] => some (.rddirx x y)
  | "WRDIRX", [.creg x, .creg y] => some (.wrdirx x y)
  | "SAT64", [.creg c] => some (.sat64 c)
  | "WRDLD", [.creg c, .value v] => (unsignedField 16 v).map (.wrdld c)
  | "INV", [.creg c] => some (.inv c)
  | "OR", [.creg x, .creg y] => some (.or x y)
  | "ORI", [.creg c, .value v] => (unsignedField 16 v).map (.ori c)
  | "AND", [.creg x, .creg y] => some (.and x y)
  | "ANDI", [.creg c, .value v] => (unsignedField 16 v).map (.andi c)
  | "XOR", [.creg x, .creg y] => some (.xor x y)
  | "XORI", [.creg c, .value v] => (unsignedField 16 v).map (.xori c)
  | "JGEZ", [.creg c, .value v] => (unsignedField 12 v).map (.jgez c)
  | "JNEG", [.creg c, .value v] => (unsignedField 12 v).map (.jneg c)
  | "JNZ", [.creg c, .value v] => (unsignedField 12 v).map (.jnz c)
  | "JZ", [.creg c, .value v] => (unsignedField 12 v).map (.jz c)
  | "JZC", [.creg c, .value v] => (unsignedField 12 v).map (.jzc c)
  | "JMP", [.value v] => (unsignedField 12 v).map .jmp
  | "APA", [.value k, .value v] => (fractionField 8 k).bind fun k => (unsignedField 15 v).map (.apa k)
  | "APB", [.value k, .value v] => (fractionField 8 k).bind fun k => (unsignedField 15 v).map (.apb k)
  | "APRA", [.creg c, .value v] => (unsignedField 15 v).map (.apra c)
  | "APRB", [.creg c, .value v] => (unsignedField 15 v).map (.aprb c)
  | "APRRA", [.creg x, .creg y] => some (.aprra x y)
  | "APRRB", [.creg x, .creg y] => some (.aprrb x y)
  | "APMA", [.creg c, n] => n.mregNumber.map (.apma c)
  | "APMB", [.creg c, n] => n.mregNumber.map (.apmb c)
  | "CHR", [.value r, .value v] => (unsignedField 8 r).bind fun r => (unsignedField 15 v).bind (chrFields r)
  | "PITCH", [.value r, .value v] => (unsignedField 8 r).bind fun r => (unsignedField 15 v).bind (pitchFields r)
  | "SET", [.value v, .creg c] => (unsignedField 6 v).map fun m => .set c (m.extractLsb 5 5).toFin (m.extractLsb 4 0).toFin
  | "INTERP", [.creg c, .value v] => (unsignedField 15 v).map (.interp c)
  | _, _ => none

/-- The instruction word of a statement whose operands are of the classes of R163. CPY_CS of OUT0-OUT3 and CPY_SC of a read-only
SFR are refused with them, as WellFormed has it: R163 asks for an SFR name and does not say that the assembler checks its access
(DESIGN CHOICE, log 34). -/
def assemble (mnemonic : String) (operands : List Operand) : Option Word :=
  (statement mnemonic operands).bind fun i => if i.wf then some (encode i) else none

/-- The OFFSET the assembler puts for a label (R151, R330): the forward distance less JUMP_BIAS; none backward. -/
def labelOffset (bias : Nat) (pc target : Nat) : Option (BitVec 12) :=
  if pc + bias ≤ target ∧ target - pc - bias < 4096 then some (BitVec.ofNat 12 (target - pc - bias)) else none

/-! ### Names (R151-R157) -/

/-- A delay block: its first address and how many words it holds (R158, R90). -/
structure Block where
  base : Nat
  words : Nat
deriving DecidableEq, Repr

/-- Two blocks that share no address. -/
def Block.apart (a b : Block) : Bool := decide (a.base + a.words ≤ b.base ∨ b.base + b.words ≤ a.base)

/-- What the directives of a program have built so far: symbols, register aliases, reserved delay blocks, the header. -/
structure AsmState where
  syms : List (String × Rat)
  names : List (String × RegName)
  blocks : List Block
  header : Header
deriving DecidableEq, Repr

/-- Before the first directive. -/
def AsmState.empty : AsmState :=
  { syms := [], names := [], blocks := [], header := { creg := [], mreg := [], sreg := [] } }

/-- The register a word names: an alias made with `.RN`, or a reserved word (R153, R154, R157). -/
def AsmState.register (s : AsmState) (w : String) : Option RegName := (s.names.lookup w).or (registerWord w)

/-- A register as an operand; a configuration register cannot stand in an instruction (R154). -/
def RegName.operand : RegName → Option Operand
  | .core c => some (.creg c)
  | .mreg m => some (.mreg m)
  | .sfr n => some (.sfr n)
  | .config _ => none

/-- An operand as written: a single word, or a number or expression. -/
inductive Arg where
  | word (w : String)
  | value (e : Expr)
deriving DecidableEq, Repr

/-- Where a statement stands: JUMP_BIAS, its address, and the labels of the program (R151: the source does not show how a
label is defined). -/
structure Place where
  bias : Nat
  pc : Nat
  labels : List (String × Nat)
deriving DecidableEq, Repr

/-- The mnemonics whose OFFSET may be a label (R151). -/
def jumpMnemonics : List String := ["JGEZ", "JNEG", "JNZ", "JZ", "JZC", "JMP"]

/-- The distance to a label, in a jump (R151). -/
def Place.offset (p : Place) (mnemonic w : String) : Option Rat :=
  if mnemonic ∈ jumpMnemonics then
    (p.labels.lookup w).bind fun t => (labelOffset p.bias p.pc t).map fun o => (o.toNat : Rat)
  else none

/-- What an operand stands for: a word is a register, in a jump a label, else a symbol or reserved word, tried in this order
where the program uses one word for several (DESIGN CHOICE, log 31). -/
def Arg.resolve (s : AsmState) (p : Place) (mnemonic : String) : Arg → Option Operand
  | .word w =>
    match s.register w with
    | some r => r.operand
    | none => ((p.offset mnemonic w).or ((Expr.name w).eval s.syms)).map .value
  | .value e => (e.eval s.syms).map .value

/-- The instruction word of a statement as written (R146, R163). -/
def assembleStatement (s : AsmState) (p : Place) (mnemonic : String) (args : List Arg) : Option Word :=
  (args.mapM (Arg.resolve s p (capitals mnemonic))).bind (assemble (capitals mnemonic))

/-! ### Directives (R156-R161) -/

/-- A directive; `integer` is the `.i` suffix (R159); a register is the word that names it. -/
inductive Directive where
  | equ (name : String) (value : Expr)
  | rn (alt : String) (register : String)
  /-- The source does not say where a block is placed (N18): the placement is an argument. -/
  | mem (name : String) (size : Expr) (base : DAddr)
  | creg (integer : Bool) (register : String) (value : Expr)
  | mreg (integer : Bool) (register : String) (value : Expr)
  | sreg (integer : Bool) (register : String) (value : Expr)
deriving DecidableEq, Repr

/-- The header word of a value: S.31, or the integer part with `.i` (R159, R160). -/
def headerWord (integer : Bool) (v : Rat) : Option Word :=
  if integer then word32 v else fractionField 32 v

/-- A register of `.SREG` that is 32 bits wide (R44). -/
def settableWide : Settable → Bool
  | .lfoF _ | .rampF _ | .maxTempo | .tapTempo => true
  | .potK _ | .tapStkRld | .tapDbRld | .swDbRld | .prgDbRld | .oflRld => false

/-- The header word of a `.SREG` value (R161). Without `.i`, a value in S.31's range becomes S.31 in a 32-bit register, as for
`.MREG`; one outside it, such as the 10 of `.sreg lfo0freq 10`, is taken as an integer, which the spec leaves unstated
(95_test_vectors.md section 1.3; DESIGN CHOICE, log 33); the scaling into a narrow register is open (N14, log 27), and no value
is refused there, of which the spec does not speak either (DESIGN CHOICE, log 33). -/
def sregWord (integer : Bool) (r : Settable) (v : Rat) : Option Word :=
  if integer then word32 v
  else if settableWide r then (if -1 ≤ v ∧ v < 1 then fractionField 32 v else word32 v)
  else some (Config.asmNarrowScale r v)

/-- The three symbols of a delay block (R90, R158): head, tail and length. -/
def memSymbols (name : String) (base : DAddr) (size : Nat) : List (String × Rat) :=
  [(name, (base.toNat : Rat)), (name ++ "#", ((base.toNat + size : Nat) : Rat)), (name ++ "!", (size : Rat))]

/-- The physical block `.MEM` reserves holds SIZE+1 words (R90). -/
def memWords (size : Nat) : Nat := size + 1

/-- `.MEM` at a placement (R158): the block is reserved, so no other block may share an address with it. A SIZE has its
fraction dropped; a negative one, and a block that would pass address 32767, are refused: of these the spec does not speak
(DESIGN CHOICE, log 32). -/
def AsmState.addBlock (s : AsmState) (name : String) (base : DAddr) (size : Rat) : Option AsmState :=
  let n := (intPart size).toNat
  let b : Block := { base := base.toNat, words := memWords n }
  if 0 ≤ intPart size ∧ b.base + b.words ≤ 32768 ∧ s.blocks.all b.apart then
    some { s with syms := memSymbols name base n ++ s.syms, blocks := b :: s.blocks }
  else none

/-- `.RN` (R157): a register takes at most one alternate name. A configuration register may have one too, for use in `.SREG`, of
which the spec does not speak (R154; DESIGN CHOICE, log 31). -/
def AsmState.rename (s : AsmState) (alt : String) (r : RegName) : Option AsmState :=
  if s.names.any (fun e => e.2 == r) then none else some { s with names := (alt, r) :: s.names }

/-- `.CREG` (R159): R0-R15 only. -/
def AsmState.presetCore (s : AsmState) (r : RegName) (w : Word) : Option AsmState :=
  match r with
  | .core (.r n) => some { s with header := { s.header with creg := (n, w) :: s.header.creg } }
  | .core .acc32 | .core .flags | .mreg _ | .sfr _ | .config _ => none

/-- `.MREG` (R160). -/
def AsmState.presetMreg (s : AsmState) (r : RegName) (w : Word) : Option AsmState :=
  match r with
  | .mreg m => some { s with header := { s.header with mreg := (m, w) :: s.header.mreg } }
  | .core _ | .sfr _ | .config _ => none

/-- `.SREG` (R161). -/
def AsmState.presetSfr (s : AsmState) (integer : Bool) (r : RegName) (v : Rat) : Option AsmState :=
  r.settable.bind fun n => (sregWord integer n v).map fun w =>
    { s with header := { s.header with sreg := (n, w) :: s.header.sreg } }

/-- What a directive does; none is an assembler error. A name given twice has its later meaning (DESIGN CHOICE, log 31), a
reserved word is no name of a program's own (log 31). -/
def Directive.run (d : Directive) (s : AsmState) : Option AsmState :=
  match d with
  | .equ name value =>
    if reserved name then none else (value.eval s.syms).map fun v => { s with syms := (name, v) :: s.syms }
  | .rn alt register => if reserved alt then none else (s.register register).bind (s.rename alt)
  | .mem name size base => if reserved name then none else (size.eval s.syms).bind (s.addBlock name base)
  | .creg integer register value =>
    (s.register register).bind fun r => ((value.eval s.syms).bind (headerWord integer)).bind (s.presetCore r)
  | .mreg integer register value =>
    (s.register register).bind fun r => ((value.eval s.syms).bind (headerWord integer)).bind (s.presetMreg r)
  | .sreg integer register value =>
    (s.register register).bind fun r => (value.eval s.syms).bind (s.presetSfr integer r)

/-- The directives of a program in order. Each sees the symbols and aliases of those before it, so that a name defined only later
is an assembler error; the spec does not speak of the order (R156-R161; DESIGN CHOICE, log 31). -/
def runDirectives (ds : List Directive) (s : AsmState) : Option AsmState :=
  match ds with
  | [] => some s
  | d :: rest => (d.run s).bind (runDirectives rest)

/-- The statements of a program from an address upward: one word each (R162). -/
def assembleLines (s : AsmState) (p : Place) (lines : List (String × List Arg)) : Option (List Word) :=
  match lines with
  | [] => some []
  | (m, args) :: rest =>
    (assembleStatement s p m args).bind fun w => (assembleLines s { p with pc := p.pc + 1 } rest).map (w :: ·)

/-- A program from its directives and its statements: the words from address 0, and the header (R51, R449). All directives
count for all statements (DESIGN CHOICE, log 31). -/
def assembleProgram (bias : Nat) (labels : List (String × Nat)) (ds : List Directive) (lines : List (String × List Arg)) :
    Option Program :=
  (runDirectives ds AsmState.empty).bind fun s =>
    (assembleLines s { bias := bias, pc := 0, labels := labels } lines).map fun ws => { text := ws, header := s.header }

end Sys2Proof.Machine
end

