-- ==== Sys2Proof/Safety.lean ====
section
/-! DEFINITION. The terms in which statements about this machine speak: the invariant of its state, what an instruction may
change (10_state.md R30, R37, R38; 46_extended.md R367), when an instruction stops (60_exceptions.md R402), and the ranges of
saturation (00_scope.md R10). -/

namespace Sys2Proof.Machine

/-! ### The invariant -/

/-- The states the machine is meant to be in: both memories in their canonical form inside their sizes (R48, R50), pc a number
in 0..PROG_LEN (R40), PROG_LEN at most 1024 (R7). -/
structure State.Inv (s : State) : Prop where
  delayWf : Memory.wf 32768 s.delay = true
  iramWf : Memory.wf 1024 s.iram = true
  pcLe : s.pc ≤ s.progLen
  lenLe : s.progLen ≤ 1024

/-! ### What an instruction may change -/

/-- The pieces of state an instruction may change, the program counter apart. -/
structure Touch where
  /-- Of R0-R15. -/
  core : List (Fin 16) := []
  /-- ACC32. -/
  acc32 : Bool := false
  /-- ACC64. -/
  acc64 : Bool := false
  /-- Of MR0-MR127. -/
  mreg : List (Fin 128) := []
  /-- Physical delay addresses. -/
  delay : List DAddr := []
  /-- Special function registers. -/
  sfr : List Sfr := []
  /-- Of the user bits. -/
  user : List (Fin 2) := []
deriving DecidableEq, Repr

/-- What no instruction changes: FLAGS and the hardware-driven registers (R42, R45), the output samples of finished periods
(R447), the configuration registers (R47), DCNT (R49, R448), the instruction RAM (R97) and PROG_LEN, the selected program, and
the model's own two fields. -/
structure SameOutside (s t : State) : Prop where
  flags : t.flags = s.flags
  env : t.env = s.env
  tapTempo : t.tapTempo = s.tapTempo
  sampleCnt : t.sampleCnt = s.sampleCnt
  dac : t.dac = s.dac
  cfg : t.cfg = s.cfg
  dcnt : t.dcnt = s.dcnt
  iram : ∀ a, Memory.read t.iram a = Memory.read s.iram a
  progLen : t.progLen = s.progLen
  pending : t.pending = s.pending
  par : t.par = s.par
  drawIx : t.drawIx = s.drawIx

/-- From `s` to `t` nothing has changed but the pieces `w` names and pc. Delay RAM is compared word by word over all 32768
addresses, SFRs by what CPY_CS reads, the outputs by what they hold and whether the iteration has written them. -/
structure Changes (w : Touch) (s t : State) : Prop where
  core : ∀ n, n ∉ w.core → t.core[n] = s.core[n]
  acc32 : w.acc32 = false → t.acc32 = s.acc32
  acc64 : w.acc64 = false → t.acc64 = s.acc64
  mreg : ∀ m, m ∉ w.mreg → t.mreg[m] = s.mreg[m]
  delay : ∀ pa, pa ∉ w.delay → t.delayAt pa = s.delayAt pa
  sfr : ∀ n, n ∉ w.sfr → t.sfrRead n = s.sfrRead n
  out : ∀ k, Sfr.out k ∉ w.sfr → t.out[k] = s.out[k] ∧ t.outWritten[k] = s.outWritten[k]
  user : ∀ u, u ∉ w.user → t.user[u] = s.user[u]
  outside : SameOutside s t

/-- A write of a CREGNA destination. -/
def destTouch : CReg → Touch
  | .r n => { core := [n] }
  | .acc32 => { acc32 := true }
  | .flags => {}

/-- ACC32 only. -/
def Touch.toAcc32 : Touch := { acc32 := true }

/-- ACC64 only. -/
def Touch.toAcc64 : Touch := { acc64 := true }

/-- One delay word only. -/
def Touch.toDelay (pa : DAddr) : Touch := { delay := [pa] }

/-- What each instruction may change in a state (R37, R38, R39, R264, R367); a store's address is the one its meaning
computes. -/
def touchOf (i : Instr) (s : State) : Touch :=
  match i with
  | .abs _ | .addi _ _ | .add _ _ | .adds _ _ | .addsi _ _ | .sub _ _ | .subs _ _
  | .sl _ _ | .slr _ _ | .sls _ _ | .slsr _ _ | .sr _ _ | .srr _ _ | .sra _ _ | .srar _ _
  | .multrr _ _ | .multri _ _ | .neg _ | .log2 _ | .exp2 _
  | .inv _ | .or _ _ | .ori _ _ | .and _ _ | .andi _ _ | .xor _ _ | .xori _ _
  | .chr _ _ _ _ | .pitch _ _ _ _ | .interp _ _ => .toAcc32
  | .clracc64 | .macrr _ _ | .macri _ _ | .macrd _ _ | .macid _ _
  | .machrr _ _ | .machri _ _ | .machrd _ _ | .machid _ _ | .ldacc64u _ | .ldacc64l _ => .toAcc64
  | .cpyCc x _ | .cpyCmx x _ | .rddelx x _ | .rddirx x _ => destTouch x
  | .cpyCm c _ => destTouch c
  | .cpyCs c _ => destTouch c
  | .rdacc64u c | .rdacc64l c | .sat64 c => destTouch c
  | .rddel c _ => destTouch c
  | .wrdld c _ => destTouch c
  | .cpyMc _ m => { mreg := [m] }
  | .cpySc _ n => { sfr := [n] }
  | .wrdel _ a => .toDelay (s.rel a)
  | .wrdelx x _ => .toDelay (s.rel (indexAddr (s.reg x)))
  | .wrdirx x _ => .toDelay (indexAddr (s.reg x))
  | .jgez _ _ | .jneg _ _ | .jnz _ _ | .jz _ _ | .jzc _ _ | .jmp _ => {}
  | .apa _ _ | .apra _ _ | .aprra _ _ | .apma _ _ => { acc32 := true, core := [15] }
  | .apb _ a | .aprb _ a => { acc32 := true, delay := [s.rel a] }
  | .aprrb _ y => { acc32 := true, delay := [s.rel (indexAddr (s.reg y))] }
  | .apmb _ m => { acc32 := true, mreg := [m] }
  | .set _ u _ => { user := [u] }

/-! ### When an instruction stops -/

/-- The OFFSET of a jump. -/
def jumpOffset : Instr → Option (BitVec 12)
  | .jgez _ o | .jneg _ o | .jnz _ o | .jz _ o | .jzc _ o | .jmp o => some o
  | .abs _ | .clracc64 | .addi _ _ | .add _ _ | .adds _ _ | .addsi _ _ | .sub _ _ | .subs _ _
  | .sl _ _ | .slr _ _ | .sls _ _ | .slsr _ _ | .sr _ _ | .srr _ _ | .sra _ _ | .srar _ _
  | .macrr _ _ | .macri _ _ | .macrd _ _ | .macid _ _ | .machrr _ _ | .machri _ _ | .machrd _ _ | .machid _ _
  | .multrr _ _ | .multri _ _ | .neg _ | .log2 _ | .exp2 _
  | .cpyCc _ _ | .cpyCm _ _ | .cpyCs _ _ | .cpyMc _ _ | .cpySc _ _ | .cpyCmx _ _
  | .rdacc64u _ | .rdacc64l _ | .ldacc64u _ | .ldacc64l _ | .rddel _ _ | .wrdel _ _ | .rddelx _ _ | .wrdelx _ _
  | .rddirx _ _ | .wrdirx _ _ | .sat64 _ | .wrdld _ _
  | .inv _ | .or _ _ | .ori _ _ | .and _ _ | .andi _ _ | .xor _ _ | .xori _ _
  | .apa _ _ | .apb _ _ | .apra _ _ | .aprb _ _ | .aprra _ _ | .aprrb _ _ | .apma _ _ | .apmb _ _
  | .chr _ _ _ _ | .pitch _ _ _ _ | .set _ _ _ | .interp _ _ => none

/-- A well-formed jump (R330 d): `pc < target ≤ PROG_LEN - 1` with `target = pc + JUMP_BIAS + offset`. -/
def State.jumpOk (s : State) (offset : BitVec 12) : Prop :=
  s.pc < s.pc + jumpBias s.par + offset.toNat ∧ s.pc + jumpBias s.par + offset.toNat + 1 ≤ s.progLen

/-! ### Saturation in numbers (R10) -/

/-- The nearest integer of the 32-bit signed range. -/
def clamp32 (z : Int) : Int := min (max z (-2147483648)) 2147483647

/-- The nearest integer of the 64-bit signed range. -/
def clamp64 (z : Int) : Int := min (max z (-9223372036854775808)) 9223372036854775807

/-! ### Forms that statements share -/

/-- The outcome `o` of an instruction run in `s` is a next state: pc is the next address (R200 f), nothing outside `w` has
changed, and the new state satisfies `P`. -/
def Completes (w : Touch) (s : State) (o : Out) (P : State → Prop) : Prop :=
  ∃ t, o = .next t ∧ t.pc = s.pc + 1 ∧ Changes w s t ∧ P t

/-- ACC64 after accumulating the product of two S.31 numbers: the doubled product (R230), saturated on its own where MAC_PRESAT
holds, and the saturated sum (R231). -/
def macSum (s : State) (a b : Int) : Int :=
  clamp64 (s.acc64.toInt + if s.par.macPresat then clamp64 (2 * a * b) else 2 * a * b)

/-- The value of a 16-bit operand with three bits of headroom (R248). -/
def headroomValue (p : Params) (v : Half) : Int :=
  if p.mach16Lossless then v.toInt * 65536 / 8 else v.toInt / 8 * 65536

/-- The outcome of a jump that is taken where `cond` holds: both ways end in a next state that differs in pc only. -/
def JumpsWhen (cond : Prop) (offset : BitVec 12) (s : State) (o : Out) : Prop :=
  ∃ t, o = .next t ∧ Changes {} s t
    ∧ (cond → t.pc = s.pc + jumpBias s.par + offset.toNat) ∧ (¬ cond → t.pc = s.pc + 1)

/-- Whether an instruction reads FLAGS as a source operand. -/
def readsFlags : Instr → Bool
  | .abs c | .neg c | .log2 c | .exp2 c | .inv c | .ldacc64u c | .ldacc64l c => c == .flags
  | .addi c _ | .addsi c _ | .macri c _ | .machri c _ | .multri c _ | .ori c _ | .andi c _ | .xori c _ => c == .flags
  | .sl c _ | .sls c _ | .sr c _ | .sra c _ => c == .flags
  | .macrd c _ | .machrd c _ | .wrdel c _ | .apra c _ | .aprb c _ | .interp c _ => c == .flags
  | .cpyMc c _ | .apma c _ | .apmb c _ => c == .flags
  | .cpySc c _ => c == .flags
  | .jgez c _ | .jneg c _ | .jnz c _ | .jz c _ | .jzc c _ => c == .flags
  | .set c _ _ => c == .flags
  | .add x y | .adds x y | .sub x y | .subs x y | .slr x y | .slsr x y | .srr x y | .srar x y
  | .macrr x y | .machrr x y | .multrr x y | .wrdelx x y | .wrdirx x y | .or x y | .and x y | .xor x y
  | .aprra x y | .aprrb x y => x == .flags || y == .flags
  | .cpyCc _ y | .cpyCmx _ y | .rddelx _ y | .rddirx _ y => y == .flags
  | .clracc64 | .macid _ _ | .machid _ _ | .cpyCm _ _ | .cpyCs _ _ | .rdacc64u _ | .rdacc64l _ | .rddel _ _
  | .sat64 _ | .wrdld _ _ | .jmp _ | .apa _ _ | .apb _ _ | .chr _ _ _ _ | .pitch _ _ _ _ => false

/-- The state with other flag bits. -/
def State.withFlags (s : State) (f : Half) : State := { s with flags := f }

/-- An outcome with other flag bits in its next state. -/
def withFlags (o : Out) (f : Half) : Out :=
  match o with
  | .next t => .next (t.withFlags f)
  | .fault e => .fault e
  | .refused r => .refused r

/-- The register of a `.SREG` entry holds the entry's value, LSB aligned (R44, R47); a narrow register holds its low bits (D11;
DESIGN CHOICE, log 33). -/
def State.holds (s : State) (r : Settable) (v : Word) : Prop :=
  match r with
  | .potK k => s.ctl.potK[k].toNat = v.toNat % 32
  | .lfoF k => s.ctl.lfoF[k] = v
  | .rampF k => s.ctl.rampF[k] = v
  | .maxTempo => s.ctl.maxTempo = v
  | .tapTempo => s.tapTempo = v
  | .tapStkRld => s.cfg.tapStkRld.toNat = v.toNat % 65536
  | .tapDbRld => s.cfg.tapDbRld.toNat = v.toNat % 65536
  | .swDbRld => s.cfg.swDbRld.toNat = v.toNat % 65536
  | .prgDbRld => s.cfg.prgDbRld.toNat = v.toNat % 65536
  | .oflRld => s.cfg.oflRld.toNat = v.toNat % 65536

/-- What CPY_SC with the value `v` leaves in a writable SFR (R46). -/
def State.sfrHolds (s : State) (n : Sfr) (v : Word) : Prop :=
  match n with
  | .out k => s.out[k] = v ∧ s.outWritten[k] = true
  | .potK k => s.ctl.potK[k].toNat = v.toNat % 32
  | .lfoF k => s.ctl.lfoF[k] = v
  | .rampF k => s.ctl.rampF[k] = v
  | .maxTempo => s.ctl.maxTempo = v
  | .adc _ | .pin | .switch | .pot _ | .potSmth _ | .lfoSin _ | .lfoCos _ | .rampOut _
  | .tapTempo | .sampleCnt | .noise | .bootStat => False

/-- What the table of R44 and R45 say that a read of an SFR delivers: the defined bits, where the table places them. -/
def State.sfrShows (s : State) (n : Sfr) (v : Word) : Prop :=
  match n with
  | .adc k => v = s.env.adc[k]
  | .out _ => False
  | .pin => v.toNat % 65536 = s.env.pin.toNat
  | .switch => v.toNat % 65536 = s.env.switch.toNat
  | .potK k => v.toNat % 32 = s.ctl.potK[k].toNat
  | .pot k => v.toNat / 524288 = s.env.pot[k].toNat
  | .potSmth k => v.toNat = s.env.potSmth[k].toNat
  | .lfoF k => v = s.ctl.lfoF[k]
  | .rampF k => v = s.ctl.rampF[k]
  | .lfoSin k => v = s.env.lfoSin[k]
  | .lfoCos k => v = s.env.lfoCos[k]
  | .rampOut k => v = s.env.rampOut[k]
  | .maxTempo => v = s.ctl.maxTempo
  | .tapTempo => v = s.tapTempo
  | .sampleCnt => v = s.sampleCnt
  | .noise => v = s.env.noise
  | .bootStat => v = s.env.bootStat

end Sys2Proof.Machine
end

