-- ==== Sys2Proof/Certificates/Slice0/Obligations.lean ====
section
/-! DEFINITION. The statements about this model that are to be proved. Numbers R<n> are rules of spec/. In a conclusion of the
form `Completes w s (exec i s) P` the instruction answers a next state in which pc is the next address, nothing outside `w` has
changed and `P` holds (Safety.lean). -/

open Sys2Proof Sys2Proof.Machine

/-! ### Encoding and decoding -/

/-- R144, R120: a word decodes to an instruction exactly when the instruction is well formed and the word is its encoding. -/
def Obligations.DecodeEncode : Prop :=
  ∀ (w : Word) (i : Instr), decode w = .ok i ↔ WellFormed i ∧ encode i = w

/-- R138: a word that decodes matches exactly one row of the opcode map, the row of its mnemonic. -/
def Obligations.OpcodeRowUnique : Prop :=
  ∀ (w : Word) (i : Instr), decode w = .ok i →
    ∃ r ∈ opcodeRows, r.accepts w = true ∧ r.mnemonic = i.mnemonic ∧ ∀ q ∈ opcodeRows, q.accepts w = true → q = r

/-- R140: with bit 24 clear, the words rejected as IllegalOpcode are those whose I field is one of the 56 unassigned values,
listed as the rule lists them. That such a word stops the model is the spec's own decision D6. -/
def Obligations.UnassignedOpcodes : Prop :=
  ∀ w : Word, w.getLsbD 24 = false →
    (decode w = .error .illegalOpcode ↔
      (0x1D ≤ (iField w).toNat ∧ (iField w).toNat ≤ 0x2F) ∨ (0x36 ≤ (iField w).toNat ∧ (iField w).toNat ≤ 0x3F)
        ∨ (0x4C ≤ (iField w).toNat ∧ (iField w).toNat ≤ 0x4F) ∨ (0x5D ≤ (iField w).toNat ∧ (iField w).toNat ≤ 0x5F)
        ∨ 0x6C ≤ (iField w).toNat)

/-- R122, R141: ReservedBits is the answer exactly where bit 24 is 1, or the I field is a row's and some fixed bit of that row
differs. That such a word stops the model is the spec's own decision D7. -/
def Obligations.ReservedBitsRejected : Prop :=
  ∀ w : Word, decode w = .error .reservedBits ↔
    w.getLsbD 24 = true ∨ ∃ r ∈ opcodeRows, iField r.matchBits = iField w ∧ r.accepts w = false

/-- R142: a register code of 18 to 31 is rejected as BadCoreReg: in the R field of every row that has a register there (its
mask fixes bits 23:21 and leaves 20:16), and in the M field of every row of format FCC. That such a word stops the model is
the spec's own decision D8. -/
def Obligations.BadCoreRegRejected : Prop :=
  ∀ (w : Word) (r : Row), r ∈ opcodeRows → r.accepts w = true → r.mask.extractLsb 23 16 = 0xE0#8 →
    18 ≤ (w.extractLsb 20 16).toNat
      ∨ (r.mask = 0xFFE0FFE0#32 ∧ r.mnemonic ∉ ["SL", "SLS", "SR", "SRA"] ∧ 18 ≤ (w.extractLsb 4 0).toNat) →
    decode w = .error .badCoreReg

/-- R35, R142: an instruction whose destination is FLAGS is no decoding of any word, and executed all the same it stops with
FlagsAsDest. The fault is the spec's own decision D9. -/
def Obligations.FlagsNeverDestination : Prop :=
  (∀ (w : Word) (i : Instr), i.dest = some .flags → decode w ≠ .ok i)
    ∧ ∀ (i : Instr) (s : State), i.dest = some .flags → exec i s = .fault .flagsAsDest

/-- R164: the worked encodings of the source's examples decode to the instructions they stand for. -/
def Obligations.WorkedEncodings : Prop :=
  decode 0x0400FFFF = .ok (.addi (.r 0) 0xFFFF) ∧ decode 0x06020003 = .ok (.add (.r 2) (.r 3))
    ∧ decode 0x08100000 = .ok (.adds .acc32 (.r 0)) ∧ decode 0x2640006F = .ok (.macid 0x40 111)
    ∧ decode 0x60000011 = .ok (.cpyCc (.r 0) .flags) ∧ decode 0x66110011 = .ok (.cpyMc .flags 17)
    ∧ decode 0x68000004 = .ok (.cpySc (.r 0) (.out 0)) ∧ decode 0x880000C8 = .ok (.rddel (.r 0) 200)
    ∧ decode 0xA8110100 = .ok (.andi .flags 0x0100) ∧ decode 0xCC00000A = .ok (.apma (.r 0) 10)
    ∧ decode 0xD400000F = .ok (.set (.r 0) 0 15) ∧ decode 0xD60000C8 = .ok (.interp (.r 0) 200)

/-! ### The step -/

/-- R449: inside the program a step is `exec` of the decoded instruction, after which the hardware drives its registers. The
loop is the spec's own decision D1, the drive after each instruction the model's choice (log 6). -/
def Obligations.StepRunsDecoded : Prop :=
  ∀ (s : State) (i : Instr), s.pc < s.progLen → decode (Memory.read s.iram s.pc) = .ok i →
    step s = match exec i s with
      | .next t => .next t.drive
      | .fault f => .fault f
      | .refused r => .refused r

/-- R403, R138: inside the program a word that does not decode stops the step with the fault of its reason. That a ModelFault
ends the run is the spec's own decision D5. -/
def Obligations.StepRejectsUndecodable : Prop :=
  ∀ (s : State) (e : Reject), s.pc < s.progLen → decode (Memory.read s.iram s.pc) = .error e →
    step s = .fault (rejectFault e)

/-- R42, R45 (log 4, 6, 8): what the hardware drives between two instructions: FLAGS, the read-only SFRs and TAPTEMPO take
free values of a new draw, the draw counter moves on, every other piece of state is kept; `driveInputs` is the same but for
TAPTEMPO, which it keeps. That they change once a step is the model's choice (log 6, log 8) under the spec's decision D12. -/
def Obligations.DriveKeepsTheRest : Prop :=
  ∀ s : State, s.drive.core = s.core ∧ s.drive.acc32 = s.acc32 ∧ s.drive.acc64 = s.acc64 ∧ s.drive.mreg = s.mreg
    ∧ s.drive.pc = s.pc ∧ s.drive.ctl = s.ctl ∧ s.drive.sampleCnt = s.sampleCnt ∧ s.drive.out = s.out
    ∧ s.drive.outWritten = s.outWritten ∧ s.drive.dac = s.dac ∧ s.drive.cfg = s.cfg ∧ s.drive.delay = s.delay
    ∧ s.drive.dcnt = s.dcnt ∧ s.drive.iram = s.iram ∧ s.drive.progLen = s.progLen ∧ s.drive.user = s.user
    ∧ s.drive.pending = s.pending ∧ s.drive.par = s.par
    ∧ s.drive.flags = Config.flagBits s.drive.drawIx ∧ s.drive.env = Config.environment s.drive.drawIx
    ∧ (s.drive.tapTempo = s.tapTempo ∨ some s.drive.tapTempo = Config.tapMeasured s.drive.drawIx)
    ∧ s.drive.drawIx = s.drawIx + 1 ∧ s.driveInputs = { s.drive with tapTempo := s.tapTempo }

/-- R445, R446, R447: at the end of an iteration the next step is the sample tick. The loop, the moment DCNT steps and
last-write-wins outputs are the spec's own decisions D1, D24 and D29. -/
def Obligations.SampleTick : Prop :=
  ∀ s : State, s.progLen ≤ s.pc → s.progLen ≠ 0 → s.pending = none →
    ∃ t, step s = .next t ∧ (t.dcnt.toNat : Int) = ((s.dcnt.toNat : Int) - 1) % 32768
      ∧ t.sampleCnt.toNat = (s.sampleCnt.toNat + 1) % 4294967296 ∧ t.pc = 0
      ∧ t.core = s.core ∧ t.acc32 = s.acc32 ∧ t.acc64 = s.acc64 ∧ t.mreg = s.mreg ∧ t.ctl = s.ctl ∧ t.user = s.user
      ∧ (∀ pa, t.delayAt pa = s.delayAt pa) ∧ (∀ a, Memory.read t.iram a = Memory.read s.iram a)
      ∧ t.progLen = s.progLen ∧ t.cfg = s.cfg
      ∧ (∀ k : Fin 4, s.outWritten[k] = true → t.dac[k] = some s.out[k]) ∧ ∀ k : Fin 4, t.outWritten[k] = false

/-- R445: after k ticks DCNT has gone down by k modulo 2^15 and SAMPLECNT up by k modulo 2^32. DCNT's width and moment and
SAMPLECNT's first value are the spec's own decision D24. -/
def Obligations.TickCounters : Prop :=
  ∀ (s : State) (k : Nat), ((State.tick^[k] s).dcnt.toNat : Int) = ((s.dcnt.toNat : Int) - k) % 32768
    ∧ (State.tick^[k] s).sampleCnt.toNat = (s.sampleCnt.toNat + k) % 4294967296
    ∧ (State.tick^[k] s).core = s.core ∧ (State.tick^[k] s).acc32 = s.acc32 ∧ (State.tick^[k] s).acc64 = s.acc64
    ∧ (State.tick^[k] s).mreg = s.mreg ∧ (State.tick^[k] s).delay = s.delay ∧ (State.tick^[k] s).ctl = s.ctl
    ∧ (State.tick^[k] s).user = s.user

/-- R440, R448, R56 (log 16, 17): at the end of an iteration a selected program is loaded, and what its header presets,
TAPTEMPO among it, is still there before its first instruction; a step without any program, or with one the machine cannot
hold, is refused by name. That the load is a step at the boundary, and the two refusals, are the model's choice (log 16, log
17) under the spec's decision D1. -/
def Obligations.BoundaryLoads : Prop :=
  ∀ s : State, s.progLen ≤ s.pc →
    (∀ p, s.pending = some p → p.wf = true → step s = .next (s.programChange p).driveInputs
        ∧ ∀ r v, (s.programChange p).holds r v → (s.programChange p).driveInputs.holds r v)
      ∧ (∀ p, s.pending = some p → p.wf = false → step s = .refused .badProgram)
      ∧ (s.pending = none → s.progLen = 0 → step s = .refused .noProgram)

/-- R440: the effects of a program change, its eight items. A register with a header entry holds it; a register narrower than
32 bits (POTn_K, the configuration registers) holds the entry's low bits, which is the model's choice after the spec's own
decision D11 (log 33). A register without an entry holds a free value (item 6; D25, log 9). pc = 0 is the spec's own decision
D1, the open DCNT_INIT its D24. That the outputs stay muted when the load is done is the model's choice (log 21). -/
def Obligations.ProgramChange : Prop :=
  ∀ (s : State) (p : Program), p.wf = true →
    (∀ (a : Nat) (h : a < p.text.length), Memory.read (s.programChange p).iram a = p.text[a])
      ∧ (s.programChange p).progLen = p.text.length
      ∧ (∀ pa, (s.programChange p).delayAt pa = 0) ∧ (s.programChange p).acc32 = 0
      ∧ (s.programChange p).sampleCnt = 0
      ∧ (∀ e ∈ p.header.creg, (s.programChange p).core[e.1] = e.2)
      ∧ (∀ e ∈ p.header.mreg, (s.programChange p).mreg[e.1] = e.2)
      ∧ (∀ e ∈ p.header.sreg, (s.programChange p).holds e.1 e.2)
      ∧ (∀ n : Fin 16, (∀ e ∈ p.header.creg, e.1 ≠ n) →
          (s.programChange p).core[n] = (Config.unsetCore s.drawIx)[n])
      ∧ (∀ m : Fin 128, (∀ e ∈ p.header.mreg, e.1 ≠ m) →
          (s.programChange p).mreg[m] = (Config.unsetMreg s.drawIx)[m])
      ∧ (s.programChange p).acc64 = s.acc64 ∧ (s.programChange p).pc = 0
      ∧ (s.programChange p).dcnt = Config.dcntInit s.drawIx
      ∧ (∀ k : Fin 4, (s.programChange p).dac[k] = none) ∧ (s.programChange p).pending = none

/-- R56: ACC32, SAMPLECNT, pc and the delay RAM after reset. That power-on is a program change is the spec's own decision D26;
that the outputs are muted at reset is the model's choice (log 21). -/
def Obligations.ResetValues : Prop :=
  State.reset.acc32 = 0 ∧ State.reset.sampleCnt = 0 ∧ State.reset.pc = 0
    ∧ (∀ pa, State.reset.delayAt pa = 0) ∧ ∀ k : Fin 4, State.reset.dac[k] = none

/-- log 1 and R56 ("It must not return 0"): at reset no general register and no MREG reads as 0. That they hold a value at all
is the model's choice. -/
def Obligations.ResetRegistersNonzero : Prop :=
  (∀ n : Fin 16, State.reset.core[n] ≠ 0) ∧ ∀ m : Fin 128, State.reset.mreg[m] ≠ 0

/-! ### The machine as a whole -/

/-- The invariant holds after reset. -/
def Obligations.ResetInv : Prop := State.reset.Inv

/-- Every step keeps the invariant: canonical memories of the spec's sizes, pc in 0..PROG_LEN, PROG_LEN at most 1024. -/
def Obligations.StepKeepsInv : Prop :=
  ∀ s t : State, s.Inv → step s = .next t → t.Inv

/-- What each of the 72 instructions may change (R37, R38, R264, R367); everything else keeps its value. That CHR and PITCH
change ACC32 alone is the spec's own decision D21. -/
def Obligations.FrameOfEveryInstruction : Prop :=
  ∀ (i : Instr) (s t : State), exec i s = .next t → Changes (touchOf i s) s t

/-- The spec's lists of writers: ACC64 (R38), MREGs (R264), delay RAM (R30), user bits (R365), SFRs (R43), core registers
(R37). -/
def Obligations.OnlyTheseWrite : Prop :=
  ∀ (i : Instr) (s t : State), exec i s = .next t →
    (t.acc64 ≠ s.acc64 → i.mnemonic ∈ ["CLRACC64", "MACRR", "MACRI", "MACRD", "MACID", "MACHRR", "MACHRI", "MACHRD",
      "MACHID", "LDACC64U", "LDACC64L"])
    ∧ ((∃ m : Fin 128, t.mreg[m] ≠ s.mreg[m]) → i.mnemonic ∈ ["CPY_MC", "APMB"])
    ∧ ((∃ pa, t.delayAt pa ≠ s.delayAt pa) → i.mnemonic ∈ ["WRDEL", "WRDELX", "WRDIRX", "APB", "APRB", "APRRB"])
    ∧ ((∃ u : Fin 2, t.user[u] ≠ s.user[u]) → i.mnemonic = "SET")
    ∧ ((∃ n, t.sfrRead n ≠ s.sfrRead n) ∨ (∃ k : Fin 4, t.out[k] ≠ s.out[k]) → i.mnemonic = "CPY_SC")
    ∧ ∀ n : Fin 16, t.core[n] ≠ s.core[n] →
        i.dest = some (.r n) ∨ (n = 15 ∧ i.mnemonic ∈ ["APA", "APRA", "APRRA", "APMA"])

/-- R402: every well-formed instruction has a next state but for three named cases: a jump outside the program, EXP2 of a
non-negative operand, CHR with bit 31 of R15 set. The stops are the spec's own decisions D4, D5, D19 and D21. That a read of a
register nothing has set does not stop (reason 9, UnsetRegister, D25) is the model's choice (log 1, log 9). -/
def Obligations.WhenAnInstructionStops : Prop :=
  ∀ (i : Instr) (s : State), WellFormed i →
    (∃ t, exec i s = .next t)
      ∨ (∃ o, jumpOffset i = some o ∧ ¬ s.jumpOk o ∧ exec i s = .fault .jumpOutOfRange)
      ∨ (∃ c, i = .exp2 c ∧ (s.reg c).getLsbD 31 = false ∧ exec i s = .fault .exp2NonNegative)
      ∨ ∃ neg lfo w a, i = .chr neg lfo w a ∧ (s.core[(15 : Fin 16)]).getLsbD 31 = true
          ∧ exec i s = .fault .chrParamBad

/-- R337: an instruction that has a next state strictly increases pc, and inside the program it stays within 0..PROG_LEN. That
a jump outside the program stops is the spec's own decision D4; both values of JUMP_BIAS (D3) are covered. -/
def Obligations.PcIncreases : Prop :=
  ∀ (i : Instr) (s t : State), exec i s = .next t → s.pc < t.pc ∧ (s.pc < s.progLen → t.pc ≤ t.progLen)

/-- R337, R446, R448: from any address of the program, after at most PROG_LEN - pc steps the iteration has stopped with a
fault or stands at PROG_LEN, with DCNT, SAMPLECNT and the program as they were. The loop and the stop of a bad jump are the
spec's own decisions D1 and D4. -/
def Obligations.IterationEnds : Prop :=
  ∀ s : State, s.pc ≤ s.progLen → ∃ k, k ≤ s.progLen - s.pc ∧
    ((∃ f, Host.Core.run Sys2Proof.core k s = .fault f)
      ∨ ∃ t : State, Host.Core.run Sys2Proof.core k s = .next t ∧ t.pc = t.progLen ∧ t.progLen = s.progLen
          ∧ t.dcnt = s.dcnt ∧ t.sampleCnt = s.sampleCnt ∧ ∀ a, Memory.read t.iram a = Memory.read s.iram a)

/-- R42: an instruction that does not read FLAGS as an operand gives the same outcome whatever the flag bits are. -/
def Obligations.FlagsReachOnlyTheirReaders : Prop :=
  ∀ (i : Instr) (s : State) (f : Half), readsFlags i = false → exec i (s.withFlags f) = withFlags (exec i s) f

/-- R35, R41: a read of FLAGS delivers the 16 flag bits in its lower half; ANDI isolates them, CPY_CC copies them. The upper half
is free, by the spec's own decision D11 (log 5). -/
def Obligations.FlagsRead : Prop :=
  ∀ (s : State) (mask : Half) (d : CReg),
    (s.reg .flags).toNat % 65536 = s.flags.toNat
      ∧ (s.reg .flags).toNat / 65536 = (Config.undefinedBits s.drawIx).toNat / 65536
      ∧ (Completes .toAcc32 s (exec (.andi .flags mask) s) fun t => t.acc32.toNat = (s.flags &&& mask).toNat)
      ∧ (d ≠ .flags → Completes (destTouch d) s (exec (.cpyCc d .flags) s) fun t =>
          (t.reg d).toNat % 65536 = s.flags.toNat)

/-! ### Math operations, part 1 -/

/-- R201: ABS; of 0x80000000 it is one of two values, and which one is open. It is the open parameter ABS_MIN of the spec's
decision D15 (log 10). -/
def Obligations.AbsResult : Prop :=
  ∀ (s : State) (c : CReg), Completes .toAcc32 s (exec (.abs c) s) fun t =>
    (0 ≤ (s.reg c).toInt → t.acc32 = s.reg c)
      ∧ ((s.reg c).toInt < 0 → s.reg c ≠ 0x80000000#32 → t.acc32.toInt = -(s.reg c).toInt)
      ∧ (s.reg c = 0x80000000#32 → t.acc32 = 0x7FFFFFFF#32 ∨ t.acc32 = 0x80000000#32)

/-- R202: CLRACC64 clears all 64 bits of ACC64 and changes nothing else. -/
def Obligations.Clracc64Result : Prop :=
  ∀ s : State, Completes .toAcc64 s (exec .clracc64 s) fun t => t.acc64 = 0

/-- R203, R204, R207: ADDI, ADD and SUB wrap modulo 2^32. -/
def Obligations.WrappingArithmetic : Prop :=
  ∀ (s : State) (c x y : CReg) (imm : Half),
    Completes .toAcc32 s (exec (.addi c imm) s) (fun t =>
      (t.acc32.toNat : Int) = (((s.reg c).toNat : Int) + imm.toInt) % 4294967296)
    ∧ Completes .toAcc32 s (exec (.add x y) s) (fun t =>
      t.acc32.toNat = ((s.reg x).toNat + (s.reg y).toNat) % 4294967296)
    ∧ Completes .toAcc32 s (exec (.sub x y) s) fun t =>
      (t.acc32.toNat : Int) = (((s.reg x).toNat : Int) - (s.reg y).toNat) % 4294967296

/-- R205, R206, R208, R242: ADDS, ADDSI, SUBS and NEG saturate. -/
def Obligations.SaturatingArithmetic : Prop :=
  ∀ (s : State) (c x y : CReg) (imm : Half),
    Completes .toAcc32 s (exec (.adds x y) s) (fun t =>
      t.acc32.toInt = clamp32 ((s.reg x).toInt + (s.reg y).toInt))
    ∧ Completes .toAcc32 s (exec (.addsi c imm) s) (fun t =>
      t.acc32.toInt = clamp32 ((s.reg c).toInt + imm.toInt * 65536))
    ∧ Completes .toAcc32 s (exec (.subs x y) s) (fun t =>
      t.acc32.toInt = clamp32 ((s.reg x).toInt - (s.reg y).toInt))
    ∧ Completes .toAcc32 s (exec (.neg c) s) fun t => t.acc32.toInt = clamp32 (-(s.reg c).toInt)

/-- R209, R213, R215: the plain shifts by an immediate count. -/
def Obligations.ShiftsByImmediate : Prop :=
  ∀ (s : State) (c : CReg) (n : BitVec 5),
    Completes .toAcc32 s (exec (.sl c n) s) (fun t =>
      t.acc32.toNat = (s.reg c).toNat * 2 ^ n.toNat % 4294967296)
    ∧ Completes .toAcc32 s (exec (.sr c n) s) (fun t => t.acc32.toNat = (s.reg c).toNat / 2 ^ n.toNat)
    ∧ Completes .toAcc32 s (exec (.sra c n) s) fun t => t.acc32.toInt = (s.reg c).toInt / 2 ^ n.toNat

/-- R210, R214, R216: the plain shifts by a register, of which only the 5 low bits count. -/
def Obligations.ShiftsByRegister : Prop :=
  ∀ (s : State) (x y : CReg),
    Completes .toAcc32 s (exec (.slr x y) s) (fun t =>
      t.acc32.toNat = (s.reg x).toNat * 2 ^ ((s.reg y).toNat % 32) % 4294967296)
    ∧ Completes .toAcc32 s (exec (.srr x y) s) (fun t =>
      t.acc32.toNat = (s.reg x).toNat / 2 ^ ((s.reg y).toNat % 32))
    ∧ Completes .toAcc32 s (exec (.srar x y) s) fun t =>
      t.acc32.toInt = (s.reg x).toInt / 2 ^ ((s.reg y).toNat % 32)

/-- R211, R212 (D28): SLS and SLSR multiply by a power of two and saturate. The bit-level rule is the spec's own decision D28.
-/
def Obligations.SaturatingShifts : Prop :=
  ∀ (s : State) (c x y : CReg) (n : BitVec 5),
    Completes .toAcc32 s (exec (.sls c n) s) (fun t =>
      t.acc32.toInt = clamp32 ((s.reg c).toInt * 2 ^ n.toNat))
    ∧ Completes .toAcc32 s (exec (.slsr x y) s) fun t =>
      t.acc32.toInt = clamp32 ((s.reg x).toInt * 2 ^ ((s.reg y).toNat % 32))

/-! ### Math operations, part 2 -/

/-- R231, R247: MACRR, MACRI, MACRD and MACID, for both values of MAC_PRESAT. The doubled product and MAC_PRESAT are the
spec's own decisions D16 and D17 (log 12). -/
def Obligations.MultiplyAccumulate : Prop :=
  ∀ (s : State) (c x y : CReg) (imm : Half) (k : BitVec 8) (a : DAddr),
    Completes .toAcc64 s (exec (.macrr x y) s) (fun t => t.acc64.toInt = macSum s (s.reg x).toInt (s.reg y).toInt)
    ∧ Completes .toAcc64 s (exec (.macri c imm) s) (fun t =>
      t.acc64.toInt = macSum s (s.reg c).toInt (imm.toInt * 65536))
    ∧ Completes .toAcc64 s (exec (.macrd c a) s) (fun t =>
      t.acc64.toInt = macSum s (s.reg c).toInt ((s.delayAt (s.rel a)).toInt * 65536))
    ∧ Completes .toAcc64 s (exec (.macid k a) s) fun t =>
      t.acc64.toInt = macSum s (k.toInt * 16777216) ((s.delayAt (s.rel a)).toInt * 65536)

/-- R231, R247, R248: MACHRR, MACHRI, MACHRD and MACHID, for both values of MAC_PRESAT and of MACH16_LOSSLESS. They, and the
doubled product, are the spec's own decisions D16, D17 and D18 (log 12). -/
def Obligations.MultiplyAccumulateHeadroom : Prop :=
  ∀ (s : State) (c x y : CReg) (imm : Half) (k : BitVec 8) (a : DAddr),
    Completes .toAcc64 s (exec (.machrr x y) s) (fun t =>
      t.acc64.toInt = macSum s (s.reg x).toInt ((s.reg y).toInt / 8))
    ∧ Completes .toAcc64 s (exec (.machri c imm) s) (fun t =>
      t.acc64.toInt = macSum s (s.reg c).toInt (headroomValue s.par imm))
    ∧ Completes .toAcc64 s (exec (.machrd c a) s) (fun t =>
      t.acc64.toInt = macSum s (s.reg c).toInt (headroomValue s.par (s.delayAt (s.rel a))))
    ∧ Completes .toAcc64 s (exec (.machid k a) s) fun t =>
      t.acc64.toInt = macSum s (k.toInt * 16777216) (headroomValue s.par (s.delayAt (s.rel a)))

/-- R240, R241: MULTRR and MULTRI give the floor of the S.31 product; only -1.0 times -1.0 saturates. The doubled product is
the spec's own decision D16 (log 23). -/
def Obligations.MultiplyResult : Prop :=
  ∀ (s : State) (c x y : CReg) (imm : Half),
    Completes .toAcc32 s (exec (.multrr x y) s) (fun t =>
      (¬ (s.reg x = 0x80000000#32 ∧ s.reg y = 0x80000000#32) →
          t.acc32.toInt = (s.reg x).toInt * (s.reg y).toInt / 2147483648)
        ∧ (s.reg x = 0x80000000#32 → s.reg y = 0x80000000#32 → t.acc32 = 0x7FFFFFFF#32))
    ∧ Completes .toAcc32 s (exec (.multri c imm) s) fun t =>
      (¬ (s.reg c = 0x80000000#32 ∧ imm = 0x8000#16) → t.acc32.toInt = (s.reg c).toInt * imm.toInt / 32768)
        ∧ (s.reg c = 0x80000000#32 → imm = 0x8000#16 → t.acc32 = 0x7FFFFFFF#32)

/-- R243, R244 (log 14): LOG2 completes for every operand, EXP2 for every negative one and for no other; their values are the
free functions of the operand alone. The open functions and the stop are the spec's own decision D19. -/
def Obligations.LogarithmAndExponential : Prop :=
  ∀ (s : State) (c : CReg),
    Completes .toAcc32 s (exec (.log2 c) s) (fun t => t.acc32 = Config.log2Fn (s.reg c))
    ∧ ((s.reg c).toInt < 0 → Completes .toAcc32 s (exec (.exp2 c) s) fun t => t.acc32 = Config.exp2Fn (s.reg c))
    ∧ (0 ≤ (s.reg c).toInt → exec (.exp2 c) s = .fault .exp2NonNegative)

/-! ### Copy operations -/

/-- R261, R262, R266: CPY_CC, CPY_CM and CPY_CMX put the whole value in the named destination and nothing anywhere else. -/
def Obligations.CopyToCore : Prop :=
  ∀ (s : State) (x y : CReg) (m : Fin 128), x ≠ .flags →
    Completes (destTouch x) s (exec (.cpyCc x y) s) (fun t => t.reg x = s.reg y)
    ∧ Completes (destTouch x) s (exec (.cpyCm x m) s) (fun t => t.reg x = s.mreg[m])
    ∧ Completes (destTouch x) s (exec (.cpyCmx x y) s) fun t =>
      t.reg x = s.mreg[(s.reg y).toNat % 128]'(Nat.mod_lt _ (by decide))

/-- R264: CPY_MC. -/
def Obligations.CopyToMreg : Prop :=
  ∀ (s : State) (c : CReg) (m : Fin 128),
    Completes { mreg := [m] } s (exec (.cpyMc c m) s) fun t => t.mreg[m] = s.reg c

/-- R263, R45: CPY_CS of a readable SFR delivers the bits the table gives it; of OUT0-OUT3 it stops with SfrNotReadable. The
stop, the free undefined bits and the free draws are the spec's own decisions D10, D11 and D12. -/
def Obligations.CopyFromSfr : Prop :=
  ∀ (s : State) (c : CReg) (n : Sfr), c ≠ .flags →
    (n.readable = true → Completes (destTouch c) s (exec (.cpyCs c n) s) fun t => s.sfrShows n (t.reg c))
    ∧ (n.readable = false → exec (.cpyCs c n) s = .fault .sfrNotReadable)

/-- R265, R46: CPY_SC of a writable SFR stores the value, POTn_K its 5 low bits, and OUTn marks this period's sample; of a
read-only SFR it stops with SfrNotWritable. The stop and the last-write-wins output are the spec's own decisions D10 and D29.
-/
def Obligations.CopyToSfr : Prop :=
  ∀ (s : State) (c : CReg) (n : Sfr),
    (n.writable = true → Completes { sfr := [n] } s (exec (.cpySc c n) s) fun t => t.sfrHolds n (s.reg c))
    ∧ (n.writable = false → exec (.cpySc c n) s = .fault .sfrNotWritable)

/-! ### Load/store operations -/

/-- R281-R284: the halves of ACC64 are copied out and loaded as they are; the other half keeps its value. -/
def Obligations.AccumulatorHalves : Prop :=
  ∀ (s : State) (c d : CReg),
    Completes .toAcc64 s (exec (.ldacc64u c) s) (fun t =>
      t.acc64.toNat = (s.reg c).toNat * 4294967296 + s.acc64.toNat % 4294967296)
    ∧ Completes .toAcc64 s (exec (.ldacc64l c) s) (fun t =>
      t.acc64.toNat = s.acc64.toNat / 4294967296 * 4294967296 + (s.reg c).toNat)
    ∧ (d ≠ .flags →
      Completes (destTouch d) s (exec (.rdacc64u d) s) (fun t => (t.reg d).toNat = s.acc64.toNat / 4294967296)
      ∧ Completes (destTouch d) s (exec (.rdacc64l d) s) fun t => (t.reg d).toNat = s.acc64.toNat % 4294967296)

/-- R291 (D28): SAT64 is the upper half of ACC64 times 8, saturated. The upper word taken first is the spec's own decision
D28. -/
def Obligations.Sat64Result : Prop :=
  ∀ (s : State) (c : CReg), c ≠ .flags →
    Completes (destTouch c) s (exec (.sat64 c) s) fun t =>
      (t.reg c).toInt = clamp32 (s.acc64.toInt / 4294967296 * 8)

/-- R292: WRDLD. -/
def Obligations.WrdldResult : Prop :=
  ∀ (s : State) (c : CReg) (imm : Half), c ≠ .flags →
    Completes (destTouch c) s (exec (.wrdld c imm) s) fun t => (t.reg c).toNat = imm.toNat * 65536

/-- R85, R87, R88: every delay and MREG address of the machine is arithmetic modulo 2^15 and 2^7: no address is out of range.
The modulus is the spec's own decision D36. -/
def Obligations.AddressArithmetic : Prop :=
  ∀ (s : State) (a : DAddr) (v : Word),
    (s.rel a).toNat = (a.toNat + s.dcnt.toNat) % 32768 ∧ (indexAddr v).toNat = v.toNat % 32768
    ∧ (indexMreg v).val = v.toNat % 128
    ∧ (interpAddr s v a).toNat = (v.toNat / 65536 % 32768 + a.toNat + s.dcnt.toNat) % 32768

/-- R285, R287, R289, R84: a delay read delivers the S.15 word as an S.31 value, low half 0. -/
def Obligations.DelayReads : Prop :=
  ∀ (s : State) (x y : CReg) (a : DAddr), x ≠ .flags →
    Completes (destTouch x) s (exec (.rddel x a) s) (fun t =>
      (t.reg x).toInt = (s.delayAt (s.rel a)).toInt * 65536)
    ∧ Completes (destTouch x) s (exec (.rddelx x y) s) (fun t =>
      (t.reg x).toInt = (s.delayAt (s.rel (indexAddr (s.reg y)))).toInt * 65536)
    ∧ Completes (destTouch x) s (exec (.rddirx x y) s) fun t =>
      (t.reg x).toInt = (s.delayAt (indexAddr (s.reg y))).toInt * 65536

/-- R286, R288, R290, R84: a delay write stores the upper half at the computed address, truncating downward, and changes no
other word of the delay RAM. -/
def Obligations.DelayWrites : Prop :=
  ∀ (s : State) (x y : CReg) (a : DAddr),
    Completes (.toDelay (s.rel a)) s (exec (.wrdel x a) s) (fun t =>
      (t.delayAt (s.rel a)).toInt = (s.reg x).toInt / 65536)
    ∧ Completes (.toDelay (s.rel (indexAddr (s.reg x)))) s (exec (.wrdelx x y) s) (fun t =>
      (t.delayAt (s.rel (indexAddr (s.reg x)))).toInt = (s.reg y).toInt / 65536)
    ∧ Completes (.toDelay (indexAddr (s.reg x))) s (exec (.wrdirx x y) s) fun t =>
      (t.delayAt (indexAddr (s.reg x))).toInt = (s.reg y).toInt / 65536

/-- R293: a store to delay memory followed by a load of the same relative address loses the low 16 bits and nothing else. -/
def Obligations.DelayRoundTrip : Prop :=
  ∀ (s t : State) (c d : CReg) (a : DAddr), d ≠ .flags → exec (.wrdel c a) s = .next t →
    ∃ u, exec (.rddel d a) t = .next u ∧ (u.reg d).toNat = (s.reg c).toNat / 65536 * 65536
      ∧ 0 ≤ (s.reg c).toInt - (u.reg d).toInt ∧ (s.reg c).toInt - (u.reg d).toInt < 65536

/-- R89: the circular buffer: a sample stored at relative address A is found k sample periods later at relative address A + k.
DCNT's step and the modulus are the spec's own decisions D24 and D36. -/
def Obligations.CircularBuffer : Prop :=
  ∀ (s t : State) (c d : CReg) (a : DAddr) (k : Nat), d ≠ .flags → exec (.wrdel c a) s = .next t →
    ∃ u, exec (.rddel d (a + BitVec.ofNat 15 k)) (State.tick^[k] t) = .next u
      ∧ (u.reg d).toNat = (s.reg c).toNat / 65536 * 65536

/-! ### Logic operations -/

/-- R311-R317: the seven logic operations, bit by bit; immediates are zero-extended; the result goes to ACC32. -/
def Obligations.LogicResults : Prop :=
  ∀ (s : State) (c x y : CReg) (imm : Half),
    Completes .toAcc32 s (exec (.inv c) s) (fun t => ∀ j < 32, t.acc32.getLsbD j = !(s.reg c).getLsbD j)
    ∧ Completes .toAcc32 s (exec (.or x y) s) (fun t =>
      ∀ j < 32, t.acc32.getLsbD j = ((s.reg x).getLsbD j || (s.reg y).getLsbD j))
    ∧ Completes .toAcc32 s (exec (.ori c imm) s) (fun t =>
      ∀ j < 32, t.acc32.getLsbD j = ((s.reg c).getLsbD j || (decide (j < 16) && imm.getLsbD j)))
    ∧ Completes .toAcc32 s (exec (.and x y) s) (fun t =>
      ∀ j < 32, t.acc32.getLsbD j = ((s.reg x).getLsbD j && (s.reg y).getLsbD j))
    ∧ Completes .toAcc32 s (exec (.andi c imm) s) (fun t =>
      ∀ j < 32, t.acc32.getLsbD j = ((s.reg c).getLsbD j && (decide (j < 16) && imm.getLsbD j)))
    ∧ Completes .toAcc32 s (exec (.xor x y) s) (fun t =>
      ∀ j < 32, t.acc32.getLsbD j = ((s.reg x).getLsbD j != (s.reg y).getLsbD j))
    ∧ Completes .toAcc32 s (exec (.xori c imm) s) fun t =>
      ∀ j < 32, t.acc32.getLsbD j = ((s.reg c).getLsbD j != (decide (j < 16) && imm.getLsbD j))

/-- R292, R313, R318: WRDLD of the upper half and ORI of the lower half build a 32-bit constant in ACC32; the register keeps
the upper half over zeros. -/
def Obligations.ConstantIdiom : Prop :=
  ∀ (s t : State) (n : Fin 16) (hi lo : Half), exec (.wrdld (.r n) hi) s = .next t →
    ∃ u, exec (.ori (.r n) lo) t = .next u ∧ u.acc32.toNat = hi.toNat * 65536 + lo.toNat
      ∧ u.core[n].toNat = hi.toNat * 65536 ∧ u.pc = s.pc + 2

/-! ### Jumps -/

/-- R330, R331-R336, R338: a well-formed jump goes to `pc + JUMP_BIAS + offset` where its condition holds, else to the next
address, and changes nothing but pc. JUMP_BIAS, the range rule and SGN are the spec's own decisions D3, D4 and D23. -/
def Obligations.JumpResults : Prop :=
  ∀ (s : State) (c : CReg) (o : BitVec 12), s.jumpOk o →
    JumpsWhen (0 ≤ (s.reg c).toInt) o s (exec (.jgez c o) s)
    ∧ JumpsWhen ((s.reg c).toInt < 0) o s (exec (.jneg c o) s)
    ∧ JumpsWhen ((s.reg c).toNat ≠ 0) o s (exec (.jnz c o) s)
    ∧ JumpsWhen ((s.reg c).toNat = 0) o s (exec (.jz c o) s)
    ∧ JumpsWhen (¬ ((s.reg c).toInt < 0 ↔ s.acc32.toInt < 0)) o s (exec (.jzc c o) s)
    ∧ JumpsWhen True o s (exec (.jmp o) s)

/-- R330 d: a jump that is not well formed stops with JumpOutOfRange, whether or not its condition holds. The stop is the
spec's own decision D4. -/
def Obligations.JumpOutOfRange : Prop :=
  ∀ (s : State) (i : Instr) (o : BitVec 12), jumpOffset i = some o → ¬ s.jumpOk o →
    exec i s = .fault .jumpOutOfRange

/-- R151, R330 b: the offset the assembler puts for a label makes a taken JMP land on the label. JUMP_BIAS is the spec's own
decision D3. -/
def Obligations.LabelReached : Prop :=
  ∀ (s : State) (target : Nat) (o : BitVec 12), labelOffset (jumpBias s.par) s.pc target = some o →
    s.pc < target → target < s.progLen → ∃ t, exec (.jmp o) s = .next t ∧ t.pc = target

/-- R148: the assembler's `^` on a positive base is the real power: exactly for an integer exponent, else to within 2^-32. That
its precision is at least 32 fraction bits is the model's choice (log 30). -/
def Obligations.AssemblerPower : Prop :=
  ∀ a b : Rat, 0 < a → ∃ v, powValue a b = some v ∧ |(v : ℝ) - (a : ℝ) ^ (b : ℝ)| ≤ 1 / 2 ^ 32
    ∧ (b.den = 1 → (v : ℝ) = (a : ℝ) ^ (b : ℝ))

/-! ### Extended operations -/

/-- R351: the all-pass arithmetic: the spec's defaults in numbers, and the free functions where a default is not taken. The
parameters and their defaults are the spec's own decision D20 (log 13). -/
def Obligations.AllPassArithmetic : Prop :=
  ∀ (p : Params) (c a b k : Word),
    (p.apmacDefault = true → (apmac p c a b).toInt = clamp32 (c.toInt + a.toInt * b.toInt / 2147483648))
    ∧ (p.apmacDefault = false → apmac p c a b = Config.apmacOpen c a b)
    ∧ (p.apnegDefault = true → (apneg p k).toInt = clamp32 (-k.toInt))
    ∧ (p.apnegDefault = false → apneg p k = Config.apnegOpen k)

/-- R352, R354, R356, R358: the A halves: ACC32 takes the multiply-add with the tail, R15 takes the tail. The arithmetic is
the spec's own decision D20 (log 13). -/
def Obligations.AllPassFirstHalves : Prop :=
  ∀ (s : State) (c x y : CReg) (k : BitVec 8) (a : DAddr) (m : Fin 128),
    Completes { acc32 := true, core := [15] } s (exec (.apa k a) s) (fun t =>
      (t.reg .param0).toInt = (s.delayAt (s.rel a)).toInt * 65536
        ∧ t.acc32 = apmac s.par s.acc32 (t.reg .param0) (k ++ 0#24))
    ∧ Completes { acc32 := true, core := [15] } s (exec (.apra c a) s) (fun t =>
      (t.reg .param0).toInt = (s.delayAt (s.rel a)).toInt * 65536
        ∧ t.acc32 = apmac s.par s.acc32 (t.reg .param0) (apneg s.par (s.reg c)))
    ∧ Completes { acc32 := true, core := [15] } s (exec (.aprra x y) s) (fun t =>
      (t.reg .param0).toInt = (s.delayAt (s.rel (indexAddr (s.reg y)))).toInt * 65536
        ∧ t.acc32 = apmac s.par s.acc32 (t.reg .param0) (apneg s.par (s.reg x)))
    ∧ Completes { acc32 := true, core := [15] } s (exec (.apma c m) s) fun t =>
      t.reg .param0 = s.mreg[m] ∧ t.acc32 = apmac s.par s.acc32 (t.reg .param0) (apneg s.par (s.reg c))

/-- R353, R355, R357, R359: the B halves: the old ACC32 goes to the head (its upper half to a delay word, all of it to an
MREG), and ACC32 takes the multiply-add with R15. The arithmetic and the stored upper half are the spec's own decisions D20
and D32. -/
def Obligations.AllPassSecondHalves : Prop :=
  ∀ (s : State) (c x y : CReg) (k : BitVec 8) (a : DAddr) (m : Fin 128),
    Completes { acc32 := true, delay := [s.rel a] } s (exec (.apb k a) s) (fun t =>
      (t.delayAt (s.rel a)).toInt = s.acc32.toInt / 65536
        ∧ t.acc32 = apmac s.par (s.reg .param0) s.acc32 (k ++ 0#24))
    ∧ Completes { acc32 := true, delay := [s.rel a] } s (exec (.aprb c a) s) (fun t =>
      (t.delayAt (s.rel a)).toInt = s.acc32.toInt / 65536
        ∧ t.acc32 = apmac s.par (s.reg .param0) s.acc32 (s.reg c))
    ∧ Completes { acc32 := true, delay := [s.rel (indexAddr (s.reg y))] } s (exec (.aprrb x y) s) (fun t =>
      (t.delayAt (s.rel (indexAddr (s.reg y)))).toInt = s.acc32.toInt / 65536
        ∧ t.acc32 = apmac s.par (s.reg .param0) s.acc32 (s.reg x))
    ∧ Completes { acc32 := true, mreg := [m] } s (exec (.apmb c m) s) fun t =>
      t.mreg[m] = s.acc32 ∧ t.acc32 = apmac s.par (s.reg .param0) s.acc32 (s.reg c)

/-- R363, R364 (log 15): CHR completes where bit 31 of R15 is 0 and stops with ChrParamBad where it is 1; PITCH always
completes; both change ACC32 alone, to the free function's value. The open functions and the stop are the spec's own decision
D21. -/
def Obligations.ChorusAndPitch : Prop :=
  ∀ (s : State) (neg : Bool) (lfo : Fin 4) (w : Wave) (xfade : Fin 4) (l : BlockLen) (ramp : Fin 2) (a : DAddr),
    ((s.reg .param0).toNat < 2147483648 → Completes .toAcc32 s (exec (.chr neg lfo w a) s) fun t =>
      t.acc32 = Config.chrFn neg lfo w a (s.reg .param0) s.dcnt s.delay
        (match w with | .sin => s.env.lfoSin[lfo] | .cos => s.env.lfoCos[lfo]))
    ∧ (2147483648 ≤ (s.reg .param0).toNat → exec (.chr neg lfo w a) s = .fault .chrParamBad)
    ∧ Completes .toAcc32 s (exec (.pitch xfade l ramp a) s) fun t =>
      t.acc32 = Config.pitchFn xfade l ramp a s.dcnt s.delay s.env.rampOut[ramp]

/-- R365: SET copies one bit of a register to one user bit; the other user bit is unchanged. That the pin is a latch is the
spec's own decision D33. -/
def Obligations.SetResult : Prop :=
  ∀ (s : State) (c : CReg) (u : Fin 2) (n : Fin 32),
    Completes { user := [u] } s (exec (.set c u n) s) fun t =>
      (t.user[u] = true ↔ (s.reg c).toNat / 2 ^ n.val % 2 = 1)

/-- R366: INTERP with the spec's default arithmetic: the samples at two neighbouring addresses, weighted by the low half of
the register as an unsigned fraction; otherwise the free function. The default formula is the spec's own decision D22 (log
13). -/
def Obligations.InterpResult : Prop :=
  ∀ (s : State) (c : CReg) (a : DAddr),
    Completes .toAcc32 s (exec (.interp c a) s) fun t =>
      (s.par.interpDefault = true → t.acc32.toInt = clamp32
        ((s.delayAt (interpAddr s (s.reg c) a)).toInt * 65536
          + ((s.delayAt (interpAddr s (s.reg c) a + 1)).toInt * 65536
              - (s.delayAt (interpAddr s (s.reg c) a)).toInt * 65536)
            * (((s.reg c).toNat % 65536 : Nat) : Int) * 32768 / 2147483648))
      ∧ (s.par.interpDefault = false → t.acc32 = Config.interpOpen (s.dread (interpAddr s (s.reg c) a))
          (s.dread (interpAddr s (s.reg c) a + 1)) (interpCoef (s.reg c)))
end

