-- ==== Sys2Proof/Laws/Assembler.lean ====
section
/-! SUPPORT. What the assembler's real power can do, said once. -/

namespace Sys2Proof.Machine

/-- `rootFloor` is the greatest number whose power stays below. -/
theorem rootFloor_spec (n q num den : Nat) (hq : q ≠ 0) (hd : 0 < den) :
    rootFloor n q num den ^ q * den ≤ num * 2 ^ (n * q) ∧ num * 2 ^ (n * q) < (rootFloor n q num den + 1) ^ q * den := by
  unfold rootFloor
  constructor
  · have h := (Nat.le_nthRoot_iff (a := Nat.nthRoot q (num * 2 ^ (n * q) / den)) (b := num * 2 ^ (n * q) / den) hq).1 le_rfl
    exact (Nat.le_div_iff_mul_le hd).1 h
  · have h := Nat.lt_pow_nthRoot_add_one hq (num * 2 ^ (n * q) / den)
    exact (Nat.div_lt_iff_lt_mul hd).1 h

/-- The assembler's power is the real power to `n` fraction bits, whichever way it rounds (R148). -/
theorem realPower_error (a : Rat) (ha : 0 < a) (k q n : Nat) (hq : q ≠ 0) (up : Bool) :
    |((realPower a k q n up : Rat) : ℝ) - (a : ℝ) ^ ((k : ℝ) / (q : ℝ))| ≤ 1 / 2 ^ n := by
  have han : 0 < a.num := Rat.num_pos.2 ha
  set num := a.num.toNat ^ k with hnum
  set den := a.den ^ k with hden
  have hd : 0 < den := Nat.pow_pos a.den_pos
  obtain ⟨h1, h2⟩ := rootFloor_spec n q num den hq hd
  set m := rootFloor n q num den with hm
  have haR : (0:ℝ) < (a:ℝ) := by exact_mod_cast ha
  set x : ℝ := (a : ℝ) ^ ((k : ℝ) / (q : ℝ)) with hx
  have hx0 : 0 ≤ x := Real.rpow_nonneg haR.le _
  have hxq : x ^ q * den = num := by
    have : x ^ q = (a:ℝ) ^ k := by
      rw [hx, ← Real.rpow_natCast, ← Real.rpow_mul haR.le, div_mul_cancel₀ _ (by exact_mod_cast hq), Real.rpow_natCast]
    rw [this, hden, hnum]
    push_cast
    rw [← mul_pow]
    congr 1
    have h3 : ((a.num.toNat : ℤ) : ℝ) = (a.num : ℝ) := by rw [Int.toNat_of_nonneg han.le]
    have h4 : (a : ℝ) * (a.den : ℝ) = (a.num : ℝ) := by exact_mod_cast Rat.mul_den_eq_num a
    rw [h4]; exact h3.symm.trans (by norm_cast)
  have hP : (0:ℝ) < 2 ^ n := by positivity
  have hdR : (0:ℝ) < den := by exact_mod_cast hd
  have hX : (x * 2 ^ n) ^ q * den = num * 2 ^ (n * q) := by rw [mul_pow, ← pow_mul, mul_right_comm, hxq]
  have l1 : (m : ℝ) ≤ x * 2 ^ n := by
    refine (pow_le_pow_iff_left₀ (by positivity) (by positivity) hq).1 (le_of_mul_le_mul_right ?_ hdR)
    rw [hX]; exact_mod_cast h1
  have l2 : x * 2 ^ n < (m : ℝ) + 1 := by
    refine (pow_lt_pow_iff_left₀ (by positivity) (by positivity) hq).1 (lt_of_mul_lt_mul_right ?_ hdR.le)
    rw [hX]; exact_mod_cast h2
  have e : realPower a k q n up = ((m + 1 : Nat) : Rat) / ((2 ^ n : Nat) : Rat)
      ∨ realPower a k q n up = (m : Rat) / ((2 ^ n : Nat) : Rat) := by
    unfold realPower; simp only; split <;> simp [← hnum, ← hden, ← hm]
  rw [abs_le]
  rcases e with e | e <;> rw [e] <;> push_cast <;>
    constructor <;>
    first
    | (rw [neg_le_sub_iff_le_add, ← add_div, le_div_iff₀ hP]; linarith)
    | (rw [sub_le_iff_le_add, div_le_iff₀ hP, add_mul, div_mul_cancel₀ _ hP.ne']; linarith)

end Sys2Proof.Machine
end

