-- ==== Sys2Proof/Laws/Memory.lean ====
section
/-! SUPPORT. The laws of word memories: reading after writing, and that every operation keeps the canonical form. -/

namespace Sys2Proof.Machine

variable {w : Nat}

theorem Memory.read_erase_same (m : Memory w) (a : Nat) : Memory.read (Memory.erase m a) a = 0 := by
  induction m with
  | nil => rfl
  | cons e rest ih => obtain ⟨b, v⟩ := e; by_cases h : b = a <;> simp [Memory.erase, Memory.read, h, ih]

theorem Memory.read_erase_other (m : Memory w) {a b : Nat} (hab : b ≠ a) :
    Memory.read (Memory.erase m a) b = Memory.read m b := by
  induction m with
  | nil => rfl
  | cons e rest ih =>
    obtain ⟨c, v⟩ := e
    by_cases h : c = a
    · subst h; simp [Memory.erase, Memory.read, ih, Ne.symm hab]
    · simp [Memory.erase, Memory.read, h, ih]

theorem Memory.read_insert_other (m : Memory w) {a b : Nat} (v : BitVec w) (hab : b ≠ a) :
    Memory.read (Memory.insert m a v) b = Memory.read m b := by
  induction m with
  | nil => simp [Memory.insert, Memory.read, Ne.symm hab]
  | cons e rest ih =>
    obtain ⟨c, u⟩ := e
    by_cases h : a < c <;> simp [Memory.insert, Memory.read, h, ih, Ne.symm hab]

theorem Memory.read_insert_erase (m : Memory w) (a : Nat) (v : BitVec w) :
    Memory.read (Memory.insert (Memory.erase m a) a v) a = v := by
  induction m with
  | nil => simp [Memory.erase, Memory.insert, Memory.read]
  | cons e rest ih =>
    obtain ⟨c, u⟩ := e
    by_cases h : c = a
    · simp [Memory.erase, h, ih]
    · by_cases h' : a < c <;> simp [Memory.erase, Memory.insert, Memory.read, h, h', ih]

/-- A read of the address just written gives the word written. -/
@[simp] theorem Memory.read_write_same (m : Memory w) (a : Nat) (v : BitVec w) :
    Memory.read (Memory.write m a v) a = v := by
  unfold Memory.write
  split
  · next h => rw [Memory.read_erase_same, h]
  · exact Memory.read_insert_erase m a v

/-- A write leaves every other address alone. -/
theorem Memory.read_write_other (m : Memory w) {a b : Nat} (v : BitVec w) (hab : b ≠ a) :
    Memory.read (Memory.write m a v) b = Memory.read m b := by
  unfold Memory.write
  split
  · exact Memory.read_erase_other m hab
  · rw [Memory.read_insert_other _ v hab, Memory.read_erase_other m hab]

theorem Memory.read_write (m : Memory w) (a b : Nat) (v : BitVec w) :
    Memory.read (Memory.write m a v) b = if b = a then v else Memory.read m b := by
  split
  · next h => rw [h, Memory.read_write_same]
  · next h => exact Memory.read_write_other m v h

/-! ### The canonical form -/

theorem Memory.wfFrom_mono {m : Memory w} {lo lo' size : Nat} (hl : lo' ≤ lo) (h : Memory.wfFrom lo size m = true) :
    Memory.wfFrom lo' size m = true := by
  cases m with
  | nil => rfl
  | cons e rest =>
    simp only [Memory.wfFrom, Bool.and_eq_true, decide_eq_true_eq] at h ⊢
    exact ⟨⟨⟨by omega, h.1.1.2⟩, h.1.2⟩, h.2⟩

theorem Memory.wfFrom_erase {m : Memory w} {lo size : Nat} (a : Nat) (h : Memory.wfFrom lo size m = true) :
    Memory.wfFrom lo size (Memory.erase m a) = true := by
  induction m generalizing lo with
  | nil => rfl
  | cons e rest ih =>
    obtain ⟨b, v⟩ := e
    simp only [Memory.wfFrom, Bool.and_eq_true, decide_eq_true_eq] at h
    by_cases hb : b = a
    · simp only [Memory.erase, hb, if_true]
      exact ih (Memory.wfFrom_mono (by omega) h.2)
    · simp only [Memory.erase, hb, if_false, Memory.wfFrom, Bool.and_eq_true, decide_eq_true_eq]
      exact ⟨h.1, ih h.2⟩

theorem Memory.wfFrom_insert {m : Memory w} {lo size a : Nat} {v : BitVec w} (hlo : lo ≤ a) (ha : a < size) (hv : v ≠ 0)
    (hf : ∀ u, (a, u) ∉ m) (h : Memory.wfFrom lo size m = true) :
    Memory.wfFrom lo size (Memory.insert m a v) = true := by
  induction m generalizing lo with
  | nil => simpa [Memory.insert, Memory.wfFrom, hlo, ha] using hv
  | cons e rest ih =>
    obtain ⟨b, u⟩ := e
    have hne : a ≠ b := fun hab => hf u (by simp [hab])
    simp only [Memory.wfFrom, Bool.and_eq_true, decide_eq_true_eq] at h
    by_cases hb : a < b
    · simp only [Memory.insert, hb, if_true, Memory.wfFrom, Bool.and_eq_true, decide_eq_true_eq]
      exact ⟨⟨⟨hlo, ha⟩, hv⟩, ⟨⟨by omega, h.1.1.2⟩, h.1.2⟩, h.2⟩
    · simp only [Memory.insert, hb, if_false, Memory.wfFrom, Bool.and_eq_true, decide_eq_true_eq]
      exact ⟨h.1, ih (by omega) (fun u hu => hf u (List.mem_cons_of_mem _ hu)) h.2⟩

theorem Memory.notMem_erase (m : Memory w) (a : Nat) (u : BitVec w) : (a, u) ∉ Memory.erase m a := by
  induction m with
  | nil => simp [Memory.erase]
  | cons e rest ih =>
    obtain ⟨b, v⟩ := e
    by_cases hb : b = a
    · simp [Memory.erase, hb, ih]
    · simp [Memory.erase, hb, ih, Ne.symm hb]

/-- A store inside the memory keeps the canonical form. -/
theorem Memory.wf_write {m : Memory w} {size a : Nat} (v : BitVec w) (ha : a < size) (h : Memory.wf size m = true) :
    Memory.wf size (Memory.write m a v) = true := by
  unfold Memory.write Memory.wf at *
  split
  · exact Memory.wfFrom_erase a h
  · next hv => exact Memory.wfFrom_insert (Nat.zero_le a) ha hv (Memory.notMem_erase m a) (Memory.wfFrom_erase a h)

/-- Storing a list of words inside the memory keeps the canonical form. -/
theorem Memory.wf_load {m : Memory w} {size a : Nat} {ws : List (BitVec w)} (ha : a + ws.length ≤ size)
    (h : Memory.wf size m = true) : Memory.wf size (Memory.load m a ws) = true := by
  induction ws generalizing m a with
  | nil => exact h
  | cons v rest ih =>
    simp only [List.length_cons] at ha
    exact ih (by omega) (Memory.wf_write v (by omega) h)

/-- What a loaded memory reads: the words from `a` upward, elsewhere what it read before. -/
theorem Memory.read_load (m : Memory w) (a : Nat) (ws : List (BitVec w)) (b : Nat) :
    Memory.read (Memory.load m a ws) b =
      if h : a ≤ b ∧ b - a < ws.length then ws[b - a] else Memory.read m b := by
  induction ws generalizing m a with
  | nil => simp [Memory.load]
  | cons v rest ih =>
    rw [Memory.load, ih, Memory.read_write]
    by_cases hb : b = a
    · subst hb; simp
    · by_cases hlt : a < b
      · have h1 : b - a = (b - (a + 1)) + 1 := by omega
        by_cases hlen : b - (a + 1) < rest.length
        · rw [dif_pos ⟨by omega, hlen⟩, dif_pos ⟨by omega, by simp; omega⟩]
          simp only [h1, List.getElem_cons_succ]
        · rw [dif_neg (by omega), if_neg hb, dif_neg (by simp; omega)]
      · rw [dif_neg (by omega), if_neg hb, dif_neg (by omega)]

theorem Memory.read_eq_zero_below {m : Memory w} {lo size a : Nat} (h : Memory.wfFrom lo size m = true) (ha : a < lo) :
    Memory.read m a = 0 := by
  induction m generalizing lo with
  | nil => rfl
  | cons e rest ih =>
    obtain ⟨b, v⟩ := e
    simp only [Memory.wfFrom, Bool.and_eq_true, decide_eq_true_eq] at h
    rw [Memory.read, if_neg (by omega)]
    exact ih h.2 (by omega)

theorem Memory.ext_from {m n : Memory w} {lo size : Nat} (hm : Memory.wfFrom lo size m = true)
    (hn : Memory.wfFrom lo size n = true) (h : ∀ a, Memory.read m a = Memory.read n a) : m = n := by
  induction m generalizing n lo with
  | nil =>
    cases n with
    | nil => rfl
    | cons e rest =>
      simp only [Memory.wfFrom, Bool.and_eq_true, decide_eq_true_eq] at hn
      have := h e.1
      simp only [Memory.read, if_true] at this
      exact absurd this.symm hn.1.2
  | cons e rest ih =>
    obtain ⟨b, v⟩ := e
    simp only [Memory.wfFrom, Bool.and_eq_true, decide_eq_true_eq] at hm
    cases n with
    | nil =>
      have := h b
      simp only [Memory.read, if_true] at this
      exact absurd this hm.1.2
    | cons e' rest' =>
      obtain ⟨c, u⟩ := e'
      simp only [Memory.wfFrom, Bool.and_eq_true, decide_eq_true_eq] at hn
      rcases Nat.lt_trichotomy b c with hbc | hbc | hbc
      · have := h b
        rw [Memory.read, if_pos rfl, Memory.read, if_neg (by omega), Memory.read_eq_zero_below hn.2 (by omega)] at this
        exact absurd this hm.1.2
      · subst hbc
        have hv := h b
        simp only [Memory.read, if_true] at hv
        subst hv
        rw [ih hm.2 hn.2 fun a => ?_]
        by_cases ha : a < b + 1
        · rw [Memory.read_eq_zero_below hm.2 ha, Memory.read_eq_zero_below hn.2 ha]
        · have := h a
          rwa [Memory.read, if_neg (by omega), Memory.read, if_neg (by omega)] at this
      · have := h c
        rw [Memory.read, if_neg (by omega), Memory.read_eq_zero_below hm.2 (by omega), Memory.read, if_pos rfl] at this
        exact absurd this.symm hn.1.2

/-- Two memories in canonical form that read alike are equal data. -/
theorem Memory.ext {m n : Memory w} {size : Nat} (hm : Memory.wf size m = true) (hn : Memory.wf size n = true)
    (h : ∀ a, Memory.read m a = Memory.read n a) : m = n := Memory.ext_from hm hn h

end Sys2Proof.Machine
end

