-- ==== Sys2Proof/Laws/State.lean ====
section
/-! SUPPORT. One lemma for each field of State and each named update of it, so that no proof unfolds an update. -/

namespace Sys2Proof.Machine

/-! ### setCore -/

@[simp] theorem State.setCore_core (s : State) (n : Fin 16) (v : Word) :
    (s.setCore n v).core = s.core.set n.val v n.isLt := rfl
@[simp] theorem State.setCore_acc32 (s : State) (n : Fin 16) (v : Word) : (s.setCore n v).acc32 = s.acc32 := rfl
@[simp] theorem State.setCore_flags (s : State) (n : Fin 16) (v : Word) : (s.setCore n v).flags = s.flags := rfl
@[simp] theorem State.setCore_acc64 (s : State) (n : Fin 16) (v : Word) : (s.setCore n v).acc64 = s.acc64 := rfl
@[simp] theorem State.setCore_mreg (s : State) (n : Fin 16) (v : Word) : (s.setCore n v).mreg = s.mreg := rfl
@[simp] theorem State.setCore_pc (s : State) (n : Fin 16) (v : Word) : (s.setCore n v).pc = s.pc := rfl
@[simp] theorem State.setCore_env (s : State) (n : Fin 16) (v : Word) : (s.setCore n v).env = s.env := rfl
@[simp] theorem State.setCore_ctl (s : State) (n : Fin 16) (v : Word) : (s.setCore n v).ctl = s.ctl := rfl
@[simp] theorem State.setCore_tapTempo (s : State) (n : Fin 16) (v : Word) :
    (s.setCore n v).tapTempo = s.tapTempo := rfl
@[simp] theorem State.setCore_sampleCnt (s : State) (n : Fin 16) (v : Word) :
    (s.setCore n v).sampleCnt = s.sampleCnt := rfl
@[simp] theorem State.setCore_out (s : State) (n : Fin 16) (v : Word) : (s.setCore n v).out = s.out := rfl
@[simp] theorem State.setCore_outWritten (s : State) (n : Fin 16) (v : Word) :
    (s.setCore n v).outWritten = s.outWritten := rfl
@[simp] theorem State.setCore_dac (s : State) (n : Fin 16) (v : Word) : (s.setCore n v).dac = s.dac := rfl
@[simp] theorem State.setCore_cfg (s : State) (n : Fin 16) (v : Word) : (s.setCore n v).cfg = s.cfg := rfl
@[simp] theorem State.setCore_delay (s : State) (n : Fin 16) (v : Word) : (s.setCore n v).delay = s.delay := rfl
@[simp] theorem State.setCore_dcnt (s : State) (n : Fin 16) (v : Word) : (s.setCore n v).dcnt = s.dcnt := rfl
@[simp] theorem State.setCore_iram (s : State) (n : Fin 16) (v : Word) : (s.setCore n v).iram = s.iram := rfl
@[simp] theorem State.setCore_progLen (s : State) (n : Fin 16) (v : Word) : (s.setCore n v).progLen = s.progLen := rfl
@[simp] theorem State.setCore_user (s : State) (n : Fin 16) (v : Word) : (s.setCore n v).user = s.user := rfl
@[simp] theorem State.setCore_pending (s : State) (n : Fin 16) (v : Word) : (s.setCore n v).pending = s.pending := rfl
@[simp] theorem State.setCore_par (s : State) (n : Fin 16) (v : Word) : (s.setCore n v).par = s.par := rfl
@[simp] theorem State.setCore_drawIx (s : State) (n : Fin 16) (v : Word) : (s.setCore n v).drawIx = s.drawIx := rfl

/-! ### setAcc32 -/

@[simp] theorem State.setAcc32_core (s : State) (v : Word) : (s.setAcc32 v).core = s.core := rfl
@[simp] theorem State.setAcc32_acc32 (s : State) (v : Word) : (s.setAcc32 v).acc32 = v := rfl
@[simp] theorem State.setAcc32_flags (s : State) (v : Word) : (s.setAcc32 v).flags = s.flags := rfl
@[simp] theorem State.setAcc32_acc64 (s : State) (v : Word) : (s.setAcc32 v).acc64 = s.acc64 := rfl
@[simp] theorem State.setAcc32_mreg (s : State) (v : Word) : (s.setAcc32 v).mreg = s.mreg := rfl
@[simp] theorem State.setAcc32_pc (s : State) (v : Word) : (s.setAcc32 v).pc = s.pc := rfl
@[simp] theorem State.setAcc32_env (s : State) (v : Word) : (s.setAcc32 v).env = s.env := rfl
@[simp] theorem State.setAcc32_ctl (s : State) (v : Word) : (s.setAcc32 v).ctl = s.ctl := rfl
@[simp] theorem State.setAcc32_tapTempo (s : State) (v : Word) : (s.setAcc32 v).tapTempo = s.tapTempo := rfl
@[simp] theorem State.setAcc32_sampleCnt (s : State) (v : Word) : (s.setAcc32 v).sampleCnt = s.sampleCnt := rfl
@[simp] theorem State.setAcc32_out (s : State) (v : Word) : (s.setAcc32 v).out = s.out := rfl
@[simp] theorem State.setAcc32_outWritten (s : State) (v : Word) : (s.setAcc32 v).outWritten = s.outWritten := rfl
@[simp] theorem State.setAcc32_dac (s : State) (v : Word) : (s.setAcc32 v).dac = s.dac := rfl
@[simp] theorem State.setAcc32_cfg (s : State) (v : Word) : (s.setAcc32 v).cfg = s.cfg := rfl
@[simp] theorem State.setAcc32_delay (s : State) (v : Word) : (s.setAcc32 v).delay = s.delay := rfl
@[simp] theorem State.setAcc32_dcnt (s : State) (v : Word) : (s.setAcc32 v).dcnt = s.dcnt := rfl
@[simp] theorem State.setAcc32_iram (s : State) (v : Word) : (s.setAcc32 v).iram = s.iram := rfl
@[simp] theorem State.setAcc32_progLen (s : State) (v : Word) : (s.setAcc32 v).progLen = s.progLen := rfl
@[simp] theorem State.setAcc32_user (s : State) (v : Word) : (s.setAcc32 v).user = s.user := rfl
@[simp] theorem State.setAcc32_pending (s : State) (v : Word) : (s.setAcc32 v).pending = s.pending := rfl
@[simp] theorem State.setAcc32_par (s : State) (v : Word) : (s.setAcc32 v).par = s.par := rfl
@[simp] theorem State.setAcc32_drawIx (s : State) (v : Word) : (s.setAcc32 v).drawIx = s.drawIx := rfl

/-! ### setAcc64 -/

@[simp] theorem State.setAcc64_core (s : State) (v : Long) : (s.setAcc64 v).core = s.core := rfl
@[simp] theorem State.setAcc64_acc32 (s : State) (v : Long) : (s.setAcc64 v).acc32 = s.acc32 := rfl
@[simp] theorem State.setAcc64_flags (s : State) (v : Long) : (s.setAcc64 v).flags = s.flags := rfl
@[simp] theorem State.setAcc64_acc64 (s : State) (v : Long) : (s.setAcc64 v).acc64 = v := rfl
@[simp] theorem State.setAcc64_mreg (s : State) (v : Long) : (s.setAcc64 v).mreg = s.mreg := rfl
@[simp] theorem State.setAcc64_pc (s : State) (v : Long) : (s.setAcc64 v).pc = s.pc := rfl
@[simp] theorem State.setAcc64_env (s : State) (v : Long) : (s.setAcc64 v).env = s.env := rfl
@[simp] theorem State.setAcc64_ctl (s : State) (v : Long) : (s.setAcc64 v).ctl = s.ctl := rfl
@[simp] theorem State.setAcc64_tapTempo (s : State) (v : Long) : (s.setAcc64 v).tapTempo = s.tapTempo := rfl
@[simp] theorem State.setAcc64_sampleCnt (s : State) (v : Long) : (s.setAcc64 v).sampleCnt = s.sampleCnt := rfl
@[simp] theorem State.setAcc64_out (s : State) (v : Long) : (s.setAcc64 v).out = s.out := rfl
@[simp] theorem State.setAcc64_outWritten (s : State) (v : Long) : (s.setAcc64 v).outWritten = s.outWritten := rfl
@[simp] theorem State.setAcc64_dac (s : State) (v : Long) : (s.setAcc64 v).dac = s.dac := rfl
@[simp] theorem State.setAcc64_cfg (s : State) (v : Long) : (s.setAcc64 v).cfg = s.cfg := rfl
@[simp] theorem State.setAcc64_delay (s : State) (v : Long) : (s.setAcc64 v).delay = s.delay := rfl
@[simp] theorem State.setAcc64_dcnt (s : State) (v : Long) : (s.setAcc64 v).dcnt = s.dcnt := rfl
@[simp] theorem State.setAcc64_iram (s : State) (v : Long) : (s.setAcc64 v).iram = s.iram := rfl
@[simp] theorem State.setAcc64_progLen (s : State) (v : Long) : (s.setAcc64 v).progLen = s.progLen := rfl
@[simp] theorem State.setAcc64_user (s : State) (v : Long) : (s.setAcc64 v).user = s.user := rfl
@[simp] theorem State.setAcc64_pending (s : State) (v : Long) : (s.setAcc64 v).pending = s.pending := rfl
@[simp] theorem State.setAcc64_par (s : State) (v : Long) : (s.setAcc64 v).par = s.par := rfl
@[simp] theorem State.setAcc64_drawIx (s : State) (v : Long) : (s.setAcc64 v).drawIx = s.drawIx := rfl

/-! ### setMreg -/

@[simp] theorem State.setMreg_core (s : State) (n : Fin 128) (v : Word) : (s.setMreg n v).core = s.core := rfl
@[simp] theorem State.setMreg_acc32 (s : State) (n : Fin 128) (v : Word) : (s.setMreg n v).acc32 = s.acc32 := rfl
@[simp] theorem State.setMreg_flags (s : State) (n : Fin 128) (v : Word) : (s.setMreg n v).flags = s.flags := rfl
@[simp] theorem State.setMreg_acc64 (s : State) (n : Fin 128) (v : Word) : (s.setMreg n v).acc64 = s.acc64 := rfl
@[simp] theorem State.setMreg_mreg (s : State) (n : Fin 128) (v : Word) :
    (s.setMreg n v).mreg = s.mreg.set n.val v n.isLt := rfl
@[simp] theorem State.setMreg_pc (s : State) (n : Fin 128) (v : Word) : (s.setMreg n v).pc = s.pc := rfl
@[simp] theorem State.setMreg_env (s : State) (n : Fin 128) (v : Word) : (s.setMreg n v).env = s.env := rfl
@[simp] theorem State.setMreg_ctl (s : State) (n : Fin 128) (v : Word) : (s.setMreg n v).ctl = s.ctl := rfl
@[simp] theorem State.setMreg_tapTempo (s : State) (n : Fin 128) (v : Word) :
    (s.setMreg n v).tapTempo = s.tapTempo := rfl
@[simp] theorem State.setMreg_sampleCnt (s : State) (n : Fin 128) (v : Word) :
    (s.setMreg n v).sampleCnt = s.sampleCnt := rfl
@[simp] theorem State.setMreg_out (s : State) (n : Fin 128) (v : Word) : (s.setMreg n v).out = s.out := rfl
@[simp] theorem State.setMreg_outWritten (s : State) (n : Fin 128) (v : Word) :
    (s.setMreg n v).outWritten = s.outWritten := rfl
@[simp] theorem State.setMreg_dac (s : State) (n : Fin 128) (v : Word) : (s.setMreg n v).dac = s.dac := rfl
@[simp] theorem State.setMreg_cfg (s : State) (n : Fin 128) (v : Word) : (s.setMreg n v).cfg = s.cfg := rfl
@[simp] theorem State.setMreg_delay (s : State) (n : Fin 128) (v : Word) : (s.setMreg n v).delay = s.delay := rfl
@[simp] theorem State.setMreg_dcnt (s : State) (n : Fin 128) (v : Word) : (s.setMreg n v).dcnt = s.dcnt := rfl
@[simp] theorem State.setMreg_iram (s : State) (n : Fin 128) (v : Word) : (s.setMreg n v).iram = s.iram := rfl
@[simp] theorem State.setMreg_progLen (s : State) (n : Fin 128) (v : Word) : (s.setMreg n v).progLen = s.progLen := rfl
@[simp] theorem State.setMreg_user (s : State) (n : Fin 128) (v : Word) : (s.setMreg n v).user = s.user := rfl
@[simp] theorem State.setMreg_pending (s : State) (n : Fin 128) (v : Word) : (s.setMreg n v).pending = s.pending := rfl
@[simp] theorem State.setMreg_par (s : State) (n : Fin 128) (v : Word) : (s.setMreg n v).par = s.par := rfl
@[simp] theorem State.setMreg_drawIx (s : State) (n : Fin 128) (v : Word) : (s.setMreg n v).drawIx = s.drawIx := rfl

/-! ### setPc -/

@[simp] theorem State.setPc_core (s : State) (t : Nat) : (s.setPc t).core = s.core := rfl
@[simp] theorem State.setPc_acc32 (s : State) (t : Nat) : (s.setPc t).acc32 = s.acc32 := rfl
@[simp] theorem State.setPc_flags (s : State) (t : Nat) : (s.setPc t).flags = s.flags := rfl
@[simp] theorem State.setPc_acc64 (s : State) (t : Nat) : (s.setPc t).acc64 = s.acc64 := rfl
@[simp] theorem State.setPc_mreg (s : State) (t : Nat) : (s.setPc t).mreg = s.mreg := rfl
@[simp] theorem State.setPc_pc (s : State) (t : Nat) : (s.setPc t).pc = t := rfl
@[simp] theorem State.setPc_env (s : State) (t : Nat) : (s.setPc t).env = s.env := rfl
@[simp] theorem State.setPc_ctl (s : State) (t : Nat) : (s.setPc t).ctl = s.ctl := rfl
@[simp] theorem State.setPc_tapTempo (s : State) (t : Nat) : (s.setPc t).tapTempo = s.tapTempo := rfl
@[simp] theorem State.setPc_sampleCnt (s : State) (t : Nat) : (s.setPc t).sampleCnt = s.sampleCnt := rfl
@[simp] theorem State.setPc_out (s : State) (t : Nat) : (s.setPc t).out = s.out := rfl
@[simp] theorem State.setPc_outWritten (s : State) (t : Nat) : (s.setPc t).outWritten = s.outWritten := rfl
@[simp] theorem State.setPc_dac (s : State) (t : Nat) : (s.setPc t).dac = s.dac := rfl
@[simp] theorem State.setPc_cfg (s : State) (t : Nat) : (s.setPc t).cfg = s.cfg := rfl
@[simp] theorem State.setPc_delay (s : State) (t : Nat) : (s.setPc t).delay = s.delay := rfl
@[simp] theorem State.setPc_dcnt (s : State) (t : Nat) : (s.setPc t).dcnt = s.dcnt := rfl
@[simp] theorem State.setPc_iram (s : State) (t : Nat) : (s.setPc t).iram = s.iram := rfl
@[simp] theorem State.setPc_progLen (s : State) (t : Nat) : (s.setPc t).progLen = s.progLen := rfl
@[simp] theorem State.setPc_user (s : State) (t : Nat) : (s.setPc t).user = s.user := rfl
@[simp] theorem State.setPc_pending (s : State) (t : Nat) : (s.setPc t).pending = s.pending := rfl
@[simp] theorem State.setPc_par (s : State) (t : Nat) : (s.setPc t).par = s.par := rfl
@[simp] theorem State.setPc_drawIx (s : State) (t : Nat) : (s.setPc t).drawIx = s.drawIx := rfl

/-! ### setOut -/

@[simp] theorem State.setOut_core (s : State) (n : Fin 4) (v : Word) : (s.setOut n v).core = s.core := rfl
@[simp] theorem State.setOut_acc32 (s : State) (n : Fin 4) (v : Word) : (s.setOut n v).acc32 = s.acc32 := rfl
@[simp] theorem State.setOut_flags (s : State) (n : Fin 4) (v : Word) : (s.setOut n v).flags = s.flags := rfl
@[simp] theorem State.setOut_acc64 (s : State) (n : Fin 4) (v : Word) : (s.setOut n v).acc64 = s.acc64 := rfl
@[simp] theorem State.setOut_mreg (s : State) (n : Fin 4) (v : Word) : (s.setOut n v).mreg = s.mreg := rfl
@[simp] theorem State.setOut_pc (s : State) (n : Fin 4) (v : Word) : (s.setOut n v).pc = s.pc := rfl
@[simp] theorem State.setOut_env (s : State) (n : Fin 4) (v : Word) : (s.setOut n v).env = s.env := rfl
@[simp] theorem State.setOut_ctl (s : State) (n : Fin 4) (v : Word) : (s.setOut n v).ctl = s.ctl := rfl
@[simp] theorem State.setOut_tapTempo (s : State) (n : Fin 4) (v : Word) : (s.setOut n v).tapTempo = s.tapTempo := rfl
@[simp] theorem State.setOut_sampleCnt (s : State) (n : Fin 4) (v : Word) :
    (s.setOut n v).sampleCnt = s.sampleCnt := rfl
@[simp] theorem State.setOut_out (s : State) (n : Fin 4) (v : Word) :
    (s.setOut n v).out = s.out.set n.val v n.isLt := rfl
@[simp] theorem State.setOut_outWritten (s : State) (n : Fin 4) (v : Word) :
    (s.setOut n v).outWritten = s.outWritten.set n.val true n.isLt := rfl
@[simp] theorem State.setOut_dac (s : State) (n : Fin 4) (v : Word) : (s.setOut n v).dac = s.dac := rfl
@[simp] theorem State.setOut_cfg (s : State) (n : Fin 4) (v : Word) : (s.setOut n v).cfg = s.cfg := rfl
@[simp] theorem State.setOut_delay (s : State) (n : Fin 4) (v : Word) : (s.setOut n v).delay = s.delay := rfl
@[simp] theorem State.setOut_dcnt (s : State) (n : Fin 4) (v : Word) : (s.setOut n v).dcnt = s.dcnt := rfl
@[simp] theorem State.setOut_iram (s : State) (n : Fin 4) (v : Word) : (s.setOut n v).iram = s.iram := rfl
@[simp] theorem State.setOut_progLen (s : State) (n : Fin 4) (v : Word) : (s.setOut n v).progLen = s.progLen := rfl
@[simp] theorem State.setOut_user (s : State) (n : Fin 4) (v : Word) : (s.setOut n v).user = s.user := rfl
@[simp] theorem State.setOut_pending (s : State) (n : Fin 4) (v : Word) : (s.setOut n v).pending = s.pending := rfl
@[simp] theorem State.setOut_par (s : State) (n : Fin 4) (v : Word) : (s.setOut n v).par = s.par := rfl
@[simp] theorem State.setOut_drawIx (s : State) (n : Fin 4) (v : Word) : (s.setOut n v).drawIx = s.drawIx := rfl

/-! ### setCtl -/

@[simp] theorem State.setCtl_core (s : State) (c : Ctl) : (s.setCtl c).core = s.core := rfl
@[simp] theorem State.setCtl_acc32 (s : State) (c : Ctl) : (s.setCtl c).acc32 = s.acc32 := rfl
@[simp] theorem State.setCtl_flags (s : State) (c : Ctl) : (s.setCtl c).flags = s.flags := rfl
@[simp] theorem State.setCtl_acc64 (s : State) (c : Ctl) : (s.setCtl c).acc64 = s.acc64 := rfl
@[simp] theorem State.setCtl_mreg (s : State) (c : Ctl) : (s.setCtl c).mreg = s.mreg := rfl
@[simp] theorem State.setCtl_pc (s : State) (c : Ctl) : (s.setCtl c).pc = s.pc := rfl
@[simp] theorem State.setCtl_env (s : State) (c : Ctl) : (s.setCtl c).env = s.env := rfl
@[simp] theorem State.setCtl_ctl (s : State) (c : Ctl) : (s.setCtl c).ctl = c := rfl
@[simp] theorem State.setCtl_tapTempo (s : State) (c : Ctl) : (s.setCtl c).tapTempo = s.tapTempo := rfl
@[simp] theorem State.setCtl_sampleCnt (s : State) (c : Ctl) : (s.setCtl c).sampleCnt = s.sampleCnt := rfl
@[simp] theorem State.setCtl_out (s : State) (c : Ctl) : (s.setCtl c).out = s.out := rfl
@[simp] theorem State.setCtl_outWritten (s : State) (c : Ctl) : (s.setCtl c).outWritten = s.outWritten := rfl
@[simp] theorem State.setCtl_dac (s : State) (c : Ctl) : (s.setCtl c).dac = s.dac := rfl
@[simp] theorem State.setCtl_cfg (s : State) (c : Ctl) : (s.setCtl c).cfg = s.cfg := rfl
@[simp] theorem State.setCtl_delay (s : State) (c : Ctl) : (s.setCtl c).delay = s.delay := rfl
@[simp] theorem State.setCtl_dcnt (s : State) (c : Ctl) : (s.setCtl c).dcnt = s.dcnt := rfl
@[simp] theorem State.setCtl_iram (s : State) (c : Ctl) : (s.setCtl c).iram = s.iram := rfl
@[simp] theorem State.setCtl_progLen (s : State) (c : Ctl) : (s.setCtl c).progLen = s.progLen := rfl
@[simp] theorem State.setCtl_user (s : State) (c : Ctl) : (s.setCtl c).user = s.user := rfl
@[simp] theorem State.setCtl_pending (s : State) (c : Ctl) : (s.setCtl c).pending = s.pending := rfl
@[simp] theorem State.setCtl_par (s : State) (c : Ctl) : (s.setCtl c).par = s.par := rfl
@[simp] theorem State.setCtl_drawIx (s : State) (c : Ctl) : (s.setCtl c).drawIx = s.drawIx := rfl

/-! ### setDelay -/

@[simp] theorem State.setDelay_core (s : State) (pa : DAddr) (v : Half) : (s.setDelay pa v).core = s.core := rfl
@[simp] theorem State.setDelay_acc32 (s : State) (pa : DAddr) (v : Half) : (s.setDelay pa v).acc32 = s.acc32 := rfl
@[simp] theorem State.setDelay_flags (s : State) (pa : DAddr) (v : Half) : (s.setDelay pa v).flags = s.flags := rfl
@[simp] theorem State.setDelay_acc64 (s : State) (pa : DAddr) (v : Half) : (s.setDelay pa v).acc64 = s.acc64 := rfl
@[simp] theorem State.setDelay_mreg (s : State) (pa : DAddr) (v : Half) : (s.setDelay pa v).mreg = s.mreg := rfl
@[simp] theorem State.setDelay_pc (s : State) (pa : DAddr) (v : Half) : (s.setDelay pa v).pc = s.pc := rfl
@[simp] theorem State.setDelay_env (s : State) (pa : DAddr) (v : Half) : (s.setDelay pa v).env = s.env := rfl
@[simp] theorem State.setDelay_ctl (s : State) (pa : DAddr) (v : Half) : (s.setDelay pa v).ctl = s.ctl := rfl
@[simp] theorem State.setDelay_tapTempo (s : State) (pa : DAddr) (v : Half) :
    (s.setDelay pa v).tapTempo = s.tapTempo := rfl
@[simp] theorem State.setDelay_sampleCnt (s : State) (pa : DAddr) (v : Half) :
    (s.setDelay pa v).sampleCnt = s.sampleCnt := rfl
@[simp] theorem State.setDelay_out (s : State) (pa : DAddr) (v : Half) : (s.setDelay pa v).out = s.out := rfl
@[simp] theorem State.setDelay_outWritten (s : State) (pa : DAddr) (v : Half) :
    (s.setDelay pa v).outWritten = s.outWritten := rfl
@[simp] theorem State.setDelay_dac (s : State) (pa : DAddr) (v : Half) : (s.setDelay pa v).dac = s.dac := rfl
@[simp] theorem State.setDelay_cfg (s : State) (pa : DAddr) (v : Half) : (s.setDelay pa v).cfg = s.cfg := rfl
@[simp] theorem State.setDelay_delay (s : State) (pa : DAddr) (v : Half) :
    (s.setDelay pa v).delay = Memory.write s.delay pa.toNat v := rfl
@[simp] theorem State.setDelay_dcnt (s : State) (pa : DAddr) (v : Half) : (s.setDelay pa v).dcnt = s.dcnt := rfl
@[simp] theorem State.setDelay_iram (s : State) (pa : DAddr) (v : Half) : (s.setDelay pa v).iram = s.iram := rfl
@[simp] theorem State.setDelay_progLen (s : State) (pa : DAddr) (v : Half) :
    (s.setDelay pa v).progLen = s.progLen := rfl
@[simp] theorem State.setDelay_user (s : State) (pa : DAddr) (v : Half) : (s.setDelay pa v).user = s.user := rfl
@[simp] theorem State.setDelay_pending (s : State) (pa : DAddr) (v : Half) :
    (s.setDelay pa v).pending = s.pending := rfl
@[simp] theorem State.setDelay_par (s : State) (pa : DAddr) (v : Half) : (s.setDelay pa v).par = s.par := rfl
@[simp] theorem State.setDelay_drawIx (s : State) (pa : DAddr) (v : Half) : (s.setDelay pa v).drawIx = s.drawIx := rfl

/-! ### setUser -/

@[simp] theorem State.setUser_core (s : State) (u : Fin 2) (b : Bool) : (s.setUser u b).core = s.core := rfl
@[simp] theorem State.setUser_acc32 (s : State) (u : Fin 2) (b : Bool) : (s.setUser u b).acc32 = s.acc32 := rfl
@[simp] theorem State.setUser_flags (s : State) (u : Fin 2) (b : Bool) : (s.setUser u b).flags = s.flags := rfl
@[simp] theorem State.setUser_acc64 (s : State) (u : Fin 2) (b : Bool) : (s.setUser u b).acc64 = s.acc64 := rfl
@[simp] theorem State.setUser_mreg (s : State) (u : Fin 2) (b : Bool) : (s.setUser u b).mreg = s.mreg := rfl
@[simp] theorem State.setUser_pc (s : State) (u : Fin 2) (b : Bool) : (s.setUser u b).pc = s.pc := rfl
@[simp] theorem State.setUser_env (s : State) (u : Fin 2) (b : Bool) : (s.setUser u b).env = s.env := rfl
@[simp] theorem State.setUser_ctl (s : State) (u : Fin 2) (b : Bool) : (s.setUser u b).ctl = s.ctl := rfl
@[simp] theorem State.setUser_tapTempo (s : State) (u : Fin 2) (b : Bool) : (s.setUser u b).tapTempo = s.tapTempo := rfl
@[simp] theorem State.setUser_sampleCnt (s : State) (u : Fin 2) (b : Bool) :
    (s.setUser u b).sampleCnt = s.sampleCnt := rfl
@[simp] theorem State.setUser_out (s : State) (u : Fin 2) (b : Bool) : (s.setUser u b).out = s.out := rfl
@[simp] theorem State.setUser_outWritten (s : State) (u : Fin 2) (b : Bool) :
    (s.setUser u b).outWritten = s.outWritten := rfl
@[simp] theorem State.setUser_dac (s : State) (u : Fin 2) (b : Bool) : (s.setUser u b).dac = s.dac := rfl
@[simp] theorem State.setUser_cfg (s : State) (u : Fin 2) (b : Bool) : (s.setUser u b).cfg = s.cfg := rfl
@[simp] theorem State.setUser_delay (s : State) (u : Fin 2) (b : Bool) : (s.setUser u b).delay = s.delay := rfl
@[simp] theorem State.setUser_dcnt (s : State) (u : Fin 2) (b : Bool) : (s.setUser u b).dcnt = s.dcnt := rfl
@[simp] theorem State.setUser_iram (s : State) (u : Fin 2) (b : Bool) : (s.setUser u b).iram = s.iram := rfl
@[simp] theorem State.setUser_progLen (s : State) (u : Fin 2) (b : Bool) : (s.setUser u b).progLen = s.progLen := rfl
@[simp] theorem State.setUser_user (s : State) (u : Fin 2) (b : Bool) :
    (s.setUser u b).user = s.user.set u.val b u.isLt := rfl
@[simp] theorem State.setUser_pending (s : State) (u : Fin 2) (b : Bool) : (s.setUser u b).pending = s.pending := rfl
@[simp] theorem State.setUser_par (s : State) (u : Fin 2) (b : Bool) : (s.setUser u b).par = s.par := rfl
@[simp] theorem State.setUser_drawIx (s : State) (u : Fin 2) (b : Bool) : (s.setUser u b).drawIx = s.drawIx := rfl

/-! ### advance -/

@[simp] theorem State.advance_core (s : State) : s.advance.core = s.core := rfl
@[simp] theorem State.advance_acc32 (s : State) : s.advance.acc32 = s.acc32 := rfl
@[simp] theorem State.advance_flags (s : State) : s.advance.flags = s.flags := rfl
@[simp] theorem State.advance_acc64 (s : State) : s.advance.acc64 = s.acc64 := rfl
@[simp] theorem State.advance_mreg (s : State) : s.advance.mreg = s.mreg := rfl
@[simp] theorem State.advance_pc (s : State) : s.advance.pc = s.pc + 1 := rfl
@[simp] theorem State.advance_env (s : State) : s.advance.env = s.env := rfl
@[simp] theorem State.advance_ctl (s : State) : s.advance.ctl = s.ctl := rfl
@[simp] theorem State.advance_tapTempo (s : State) : s.advance.tapTempo = s.tapTempo := rfl
@[simp] theorem State.advance_sampleCnt (s : State) : s.advance.sampleCnt = s.sampleCnt := rfl
@[simp] theorem State.advance_out (s : State) : s.advance.out = s.out := rfl
@[simp] theorem State.advance_outWritten (s : State) : s.advance.outWritten = s.outWritten := rfl
@[simp] theorem State.advance_dac (s : State) : s.advance.dac = s.dac := rfl
@[simp] theorem State.advance_cfg (s : State) : s.advance.cfg = s.cfg := rfl
@[simp] theorem State.advance_delay (s : State) : s.advance.delay = s.delay := rfl
@[simp] theorem State.advance_dcnt (s : State) : s.advance.dcnt = s.dcnt := rfl
@[simp] theorem State.advance_iram (s : State) : s.advance.iram = s.iram := rfl
@[simp] theorem State.advance_progLen (s : State) : s.advance.progLen = s.progLen := rfl
@[simp] theorem State.advance_user (s : State) : s.advance.user = s.user := rfl
@[simp] theorem State.advance_pending (s : State) : s.advance.pending = s.pending := rfl
@[simp] theorem State.advance_par (s : State) : s.advance.par = s.par := rfl
@[simp] theorem State.advance_drawIx (s : State) : s.advance.drawIx = s.drawIx := rfl

/-! ### driveInputs -/

@[simp] theorem State.driveInputs_core (s : State) : s.driveInputs.core = s.core := rfl
@[simp] theorem State.driveInputs_acc32 (s : State) : s.driveInputs.acc32 = s.acc32 := rfl
@[simp] theorem State.driveInputs_flags (s : State) : s.driveInputs.flags = Config.flagBits (s.drawIx + 1) := rfl
@[simp] theorem State.driveInputs_acc64 (s : State) : s.driveInputs.acc64 = s.acc64 := rfl
@[simp] theorem State.driveInputs_mreg (s : State) : s.driveInputs.mreg = s.mreg := rfl
@[simp] theorem State.driveInputs_pc (s : State) : s.driveInputs.pc = s.pc := rfl
@[simp] theorem State.driveInputs_env (s : State) : s.driveInputs.env = Config.environment (s.drawIx + 1) := rfl
@[simp] theorem State.driveInputs_ctl (s : State) : s.driveInputs.ctl = s.ctl := rfl
@[simp] theorem State.driveInputs_sampleCnt (s : State) : s.driveInputs.sampleCnt = s.sampleCnt := rfl
@[simp] theorem State.driveInputs_out (s : State) : s.driveInputs.out = s.out := rfl
@[simp] theorem State.driveInputs_outWritten (s : State) : s.driveInputs.outWritten = s.outWritten := rfl
@[simp] theorem State.driveInputs_dac (s : State) : s.driveInputs.dac = s.dac := rfl
@[simp] theorem State.driveInputs_cfg (s : State) : s.driveInputs.cfg = s.cfg := rfl
@[simp] theorem State.driveInputs_delay (s : State) : s.driveInputs.delay = s.delay := rfl
@[simp] theorem State.driveInputs_dcnt (s : State) : s.driveInputs.dcnt = s.dcnt := rfl
@[simp] theorem State.driveInputs_iram (s : State) : s.driveInputs.iram = s.iram := rfl
@[simp] theorem State.driveInputs_progLen (s : State) : s.driveInputs.progLen = s.progLen := rfl
@[simp] theorem State.driveInputs_user (s : State) : s.driveInputs.user = s.user := rfl
@[simp] theorem State.driveInputs_pending (s : State) : s.driveInputs.pending = s.pending := rfl
@[simp] theorem State.driveInputs_par (s : State) : s.driveInputs.par = s.par := rfl
@[simp] theorem State.driveInputs_drawIx (s : State) : s.driveInputs.drawIx = s.drawIx + 1 := rfl
@[simp] theorem State.driveInputs_tapTempo (s : State) : s.driveInputs.tapTempo = s.tapTempo := rfl

/-! ### drive -/

@[simp] theorem State.drive_core (s : State) : s.drive.core = s.core := rfl
@[simp] theorem State.drive_acc32 (s : State) : s.drive.acc32 = s.acc32 := rfl
@[simp] theorem State.drive_flags (s : State) : s.drive.flags = Config.flagBits (s.drawIx + 1) := rfl
@[simp] theorem State.drive_acc64 (s : State) : s.drive.acc64 = s.acc64 := rfl
@[simp] theorem State.drive_mreg (s : State) : s.drive.mreg = s.mreg := rfl
@[simp] theorem State.drive_pc (s : State) : s.drive.pc = s.pc := rfl
@[simp] theorem State.drive_env (s : State) : s.drive.env = Config.environment (s.drawIx + 1) := rfl
@[simp] theorem State.drive_ctl (s : State) : s.drive.ctl = s.ctl := rfl
@[simp] theorem State.drive_tapTempo (s : State) :
    s.drive.tapTempo = (Config.tapMeasured (s.drawIx + 1)).getD s.tapTempo := rfl
@[simp] theorem State.drive_sampleCnt (s : State) : s.drive.sampleCnt = s.sampleCnt := rfl
@[simp] theorem State.drive_out (s : State) : s.drive.out = s.out := rfl
@[simp] theorem State.drive_outWritten (s : State) : s.drive.outWritten = s.outWritten := rfl
@[simp] theorem State.drive_dac (s : State) : s.drive.dac = s.dac := rfl
@[simp] theorem State.drive_cfg (s : State) : s.drive.cfg = s.cfg := rfl
@[simp] theorem State.drive_delay (s : State) : s.drive.delay = s.delay := rfl
@[simp] theorem State.drive_dcnt (s : State) : s.drive.dcnt = s.dcnt := rfl
@[simp] theorem State.drive_iram (s : State) : s.drive.iram = s.iram := rfl
@[simp] theorem State.drive_progLen (s : State) : s.drive.progLen = s.progLen := rfl
@[simp] theorem State.drive_user (s : State) : s.drive.user = s.user := rfl
@[simp] theorem State.drive_pending (s : State) : s.drive.pending = s.pending := rfl
@[simp] theorem State.drive_par (s : State) : s.drive.par = s.par := rfl
@[simp] theorem State.drive_drawIx (s : State) : s.drive.drawIx = s.drawIx + 1 := rfl

/-! ### tick -/

@[simp] theorem State.tick_core (s : State) : s.tick.core = s.core := rfl
@[simp] theorem State.tick_acc32 (s : State) : s.tick.acc32 = s.acc32 := rfl
@[simp] theorem State.tick_flags (s : State) : s.tick.flags = s.flags := rfl
@[simp] theorem State.tick_acc64 (s : State) : s.tick.acc64 = s.acc64 := rfl
@[simp] theorem State.tick_mreg (s : State) : s.tick.mreg = s.mreg := rfl
@[simp] theorem State.tick_pc (s : State) : s.tick.pc = 0 := rfl
@[simp] theorem State.tick_env (s : State) : s.tick.env = s.env := rfl
@[simp] theorem State.tick_ctl (s : State) : s.tick.ctl = s.ctl := rfl
@[simp] theorem State.tick_tapTempo (s : State) : s.tick.tapTempo = s.tapTempo := rfl
@[simp] theorem State.tick_sampleCnt (s : State) : s.tick.sampleCnt = s.sampleCnt + 1 := rfl
@[simp] theorem State.tick_out (s : State) : s.tick.out = s.out := rfl
@[simp] theorem State.tick_outWritten (s : State) : s.tick.outWritten = Vector.replicate 4 false := rfl
@[simp] theorem State.tick_dac (s : State) : s.tick.dac = Vector.ofFn fun k => some (s.periodOutput k) := rfl
@[simp] theorem State.tick_cfg (s : State) : s.tick.cfg = s.cfg := rfl
@[simp] theorem State.tick_delay (s : State) : s.tick.delay = s.delay := rfl
@[simp] theorem State.tick_dcnt (s : State) : s.tick.dcnt = s.dcnt - 1 := rfl
@[simp] theorem State.tick_iram (s : State) : s.tick.iram = s.iram := rfl
@[simp] theorem State.tick_progLen (s : State) : s.tick.progLen = s.progLen := rfl
@[simp] theorem State.tick_user (s : State) : s.tick.user = s.user := rfl
@[simp] theorem State.tick_pending (s : State) : s.tick.pending = s.pending := rfl
@[simp] theorem State.tick_par (s : State) : s.tick.par = s.par := rfl
@[simp] theorem State.tick_drawIx (s : State) : s.tick.drawIx = s.drawIx := rfl

/-! ### select -/

@[simp] theorem State.select_core (s : State) (p : Program) : (s.select p).core = s.core := rfl
@[simp] theorem State.select_acc32 (s : State) (p : Program) : (s.select p).acc32 = s.acc32 := rfl
@[simp] theorem State.select_flags (s : State) (p : Program) : (s.select p).flags = s.flags := rfl
@[simp] theorem State.select_acc64 (s : State) (p : Program) : (s.select p).acc64 = s.acc64 := rfl
@[simp] theorem State.select_mreg (s : State) (p : Program) : (s.select p).mreg = s.mreg := rfl
@[simp] theorem State.select_pc (s : State) (p : Program) : (s.select p).pc = s.pc := rfl
@[simp] theorem State.select_env (s : State) (p : Program) : (s.select p).env = s.env := rfl
@[simp] theorem State.select_ctl (s : State) (p : Program) : (s.select p).ctl = s.ctl := rfl
@[simp] theorem State.select_tapTempo (s : State) (p : Program) : (s.select p).tapTempo = s.tapTempo := rfl
@[simp] theorem State.select_sampleCnt (s : State) (p : Program) : (s.select p).sampleCnt = s.sampleCnt := rfl
@[simp] theorem State.select_out (s : State) (p : Program) : (s.select p).out = s.out := rfl
@[simp] theorem State.select_outWritten (s : State) (p : Program) : (s.select p).outWritten = s.outWritten := rfl
@[simp] theorem State.select_dac (s : State) (p : Program) : (s.select p).dac = s.dac := rfl
@[simp] theorem State.select_cfg (s : State) (p : Program) : (s.select p).cfg = s.cfg := rfl
@[simp] theorem State.select_delay (s : State) (p : Program) : (s.select p).delay = s.delay := rfl
@[simp] theorem State.select_dcnt (s : State) (p : Program) : (s.select p).dcnt = s.dcnt := rfl
@[simp] theorem State.select_iram (s : State) (p : Program) : (s.select p).iram = s.iram := rfl
@[simp] theorem State.select_progLen (s : State) (p : Program) : (s.select p).progLen = s.progLen := rfl
@[simp] theorem State.select_user (s : State) (p : Program) : (s.select p).user = s.user := rfl
@[simp] theorem State.select_pending (s : State) (p : Program) : (s.select p).pending = some p := rfl
@[simp] theorem State.select_par (s : State) (p : Program) : (s.select p).par = s.par := rfl
@[simp] theorem State.select_drawIx (s : State) (p : Program) : (s.select p).drawIx = s.drawIx := rfl

/-! ### changed -/

@[simp] theorem State.changed_core (s : State) (p : Program) :
    (s.changed p).core = presetCore p.header.creg (Config.unsetCore s.drawIx) := rfl
@[simp] theorem State.changed_acc32 (s : State) (p : Program) : (s.changed p).acc32 = 0 := rfl
@[simp] theorem State.changed_flags (s : State) (p : Program) : (s.changed p).flags = s.flags := rfl
@[simp] theorem State.changed_acc64 (s : State) (p : Program) : (s.changed p).acc64 = s.acc64 := rfl
@[simp] theorem State.changed_mreg (s : State) (p : Program) :
    (s.changed p).mreg = presetMreg p.header.mreg (Config.unsetMreg s.drawIx) := rfl
@[simp] theorem State.changed_pc (s : State) (p : Program) : (s.changed p).pc = 0 := rfl
@[simp] theorem State.changed_env (s : State) (p : Program) : (s.changed p).env = s.env := rfl
@[simp] theorem State.changed_ctl (s : State) (p : Program) : (s.changed p).ctl = Config.unsetCtl s.drawIx := rfl
@[simp] theorem State.changed_tapTempo (s : State) (p : Program) :
    (s.changed p).tapTempo = Config.unsetTapTempo s.drawIx := rfl
@[simp] theorem State.changed_sampleCnt (s : State) (p : Program) : (s.changed p).sampleCnt = 0 := rfl
@[simp] theorem State.changed_out (s : State) (p : Program) : (s.changed p).out = Config.unsetOut s.drawIx := rfl
@[simp] theorem State.changed_outWritten (s : State) (p : Program) :
    (s.changed p).outWritten = Vector.replicate 4 false := rfl
@[simp] theorem State.changed_dac (s : State) (p : Program) : (s.changed p).dac = Vector.replicate 4 none := rfl
@[simp] theorem State.changed_cfg (s : State) (p : Program) : (s.changed p).cfg = Config.unsetCfg s.drawIx := rfl
@[simp] theorem State.changed_delay (s : State) (p : Program) : (s.changed p).delay = [] := rfl
@[simp] theorem State.changed_dcnt (s : State) (p : Program) : (s.changed p).dcnt = Config.dcntInit s.drawIx := rfl
@[simp] theorem State.changed_iram (s : State) (p : Program) : (s.changed p).iram = Memory.load s.iram 0 p.text := rfl
@[simp] theorem State.changed_progLen (s : State) (p : Program) : (s.changed p).progLen = p.text.length := rfl
@[simp] theorem State.changed_user (s : State) (p : Program) : (s.changed p).user = Config.unsetUser s.drawIx := rfl
@[simp] theorem State.changed_pending (s : State) (p : Program) : (s.changed p).pending = none := rfl
@[simp] theorem State.changed_par (s : State) (p : Program) : (s.changed p).par = s.par := rfl
@[simp] theorem State.changed_drawIx (s : State) (p : Program) : (s.changed p).drawIx = s.drawIx := rfl

/-! ### withFlags -/

@[simp] theorem State.withFlags_core (s : State) (f : Half) : (s.withFlags f).core = s.core := rfl
@[simp] theorem State.withFlags_acc32 (s : State) (f : Half) : (s.withFlags f).acc32 = s.acc32 := rfl
@[simp] theorem State.withFlags_flags (s : State) (f : Half) : (s.withFlags f).flags = f := rfl
@[simp] theorem State.withFlags_acc64 (s : State) (f : Half) : (s.withFlags f).acc64 = s.acc64 := rfl
@[simp] theorem State.withFlags_mreg (s : State) (f : Half) : (s.withFlags f).mreg = s.mreg := rfl
@[simp] theorem State.withFlags_pc (s : State) (f : Half) : (s.withFlags f).pc = s.pc := rfl
@[simp] theorem State.withFlags_env (s : State) (f : Half) : (s.withFlags f).env = s.env := rfl
@[simp] theorem State.withFlags_ctl (s : State) (f : Half) : (s.withFlags f).ctl = s.ctl := rfl
@[simp] theorem State.withFlags_tapTempo (s : State) (f : Half) : (s.withFlags f).tapTempo = s.tapTempo := rfl
@[simp] theorem State.withFlags_sampleCnt (s : State) (f : Half) : (s.withFlags f).sampleCnt = s.sampleCnt := rfl
@[simp] theorem State.withFlags_out (s : State) (f : Half) : (s.withFlags f).out = s.out := rfl
@[simp] theorem State.withFlags_outWritten (s : State) (f : Half) : (s.withFlags f).outWritten = s.outWritten := rfl
@[simp] theorem State.withFlags_dac (s : State) (f : Half) : (s.withFlags f).dac = s.dac := rfl
@[simp] theorem State.withFlags_cfg (s : State) (f : Half) : (s.withFlags f).cfg = s.cfg := rfl
@[simp] theorem State.withFlags_delay (s : State) (f : Half) : (s.withFlags f).delay = s.delay := rfl
@[simp] theorem State.withFlags_dcnt (s : State) (f : Half) : (s.withFlags f).dcnt = s.dcnt := rfl
@[simp] theorem State.withFlags_iram (s : State) (f : Half) : (s.withFlags f).iram = s.iram := rfl
@[simp] theorem State.withFlags_progLen (s : State) (f : Half) : (s.withFlags f).progLen = s.progLen := rfl
@[simp] theorem State.withFlags_user (s : State) (f : Half) : (s.withFlags f).user = s.user := rfl
@[simp] theorem State.withFlags_pending (s : State) (f : Half) : (s.withFlags f).pending = s.pending := rfl
@[simp] theorem State.withFlags_par (s : State) (f : Half) : (s.withFlags f).par = s.par := rfl
@[simp] theorem State.withFlags_drawIx (s : State) (f : Half) : (s.withFlags f).drawIx = s.drawIx := rfl

end Sys2Proof.Machine
end

