-- ==== Sys2Proof/Laws/Values.lean ====
section
/-! SUPPORT. What each operand form and each arithmetic operation of Operands.lean is in numbers: one lemma each, so that no
proof unfolds them. -/

namespace Sys2Proof.Machine

theorem clamp32_range (z : Int) : -2147483648 ≤ clamp32 z ∧ clamp32 z ≤ 2147483647 := by unfold clamp32; omega

theorem clamp64_range (z : Int) : -9223372036854775808 ≤ clamp64 z ∧ clamp64 z ≤ 9223372036854775807 := by
  unfold clamp64; omega

theorem clamp32_of_range {z : Int} (h1 : -2147483648 ≤ z) (h2 : z ≤ 2147483647) : clamp32 z = z := by
  unfold clamp32; omega

theorem word_range (v : Word) : -2147483648 ≤ v.toInt ∧ v.toInt ≤ 2147483647 := by
  have h1 := BitVec.le_toInt v; have h2 := BitVec.toInt_lt (x := v); omega

theorem half_range (v : Half) : -32768 ≤ v.toInt ∧ v.toInt ≤ 32767 := by
  have h1 := BitVec.le_toInt v; have h2 := BitVec.toInt_lt (x := v); omega

theorem long_range (v : Long) : -9223372036854775808 ≤ v.toInt ∧ v.toInt ≤ 9223372036854775807 := by
  have h1 := BitVec.le_toInt v; have h2 := BitVec.toInt_lt (x := v); omega

theorem toInt_ofInt32 {z : Int} (h1 : -2147483648 ≤ z) (h2 : z ≤ 2147483647) : (BitVec.ofInt 32 z).toInt = z := by
  rw [BitVec.toInt_ofInt, Int.bmod_eq_of_le] <;> omega

theorem toInt_ofInt64 {z : Int} (h1 : -9223372036854775808 ≤ z) (h2 : z ≤ 9223372036854775807) :
    (BitVec.ofInt 64 z).toInt = z := by
  rw [BitVec.toInt_ofInt, Int.bmod_eq_of_le] <;> omega

/-! ### Saturation -/

theorem sat32_toInt (z : Int) : (sat32 z).toInt = clamp32 z := by
  unfold sat32 clamp32
  split
  · rw [show (0x7FFFFFFF#32).toInt = 2147483647 by decide]; omega
  · split
    · rw [show (0x80000000#32).toInt = -2147483648 by decide]; omega
    · rw [toInt_ofInt32] <;> omega

theorem sat64_toInt (z : Int) : (sat64 z).toInt = clamp64 z := by
  unfold sat64 clamp64
  split
  · rw [show (0x7FFFFFFFFFFFFFFF#64).toInt = 9223372036854775807 by decide]; omega
  · split
    · rw [show (0x8000000000000000#64).toInt = -9223372036854775808 by decide]; omega
    · rw [toInt_ofInt64] <;> omega

/-! ### Operand forms -/

theorem immSigned_toInt (imm : Half) : (immSigned imm).toInt = imm.toInt := by
  unfold immSigned; exact BitVec.toInt_signExtend_of_le (by decide)

theorem upperHalf_toNat (v : Half) : (upperHalf v).toNat = v.toNat * 65536 := by
  unfold upperHalf; rw [BitVec.toNat_append]; simp [Nat.shiftLeft_eq]

theorem upperHalf_toInt (v : Half) : (upperHalf v).toInt = v.toInt * 65536 := by
  have h := upperHalf_toNat v
  rw [BitVec.toInt_eq_toNat_cond, BitVec.toInt_eq_toNat_cond, h]
  split <;> split <;> omega

theorem immUnsigned_toNat (imm : Half) : (immUnsigned imm).toNat = imm.toNat := by
  unfold immUnsigned; rw [BitVec.toNat_append]; simp

theorem immUnsigned_getLsbD (imm : Half) (j : Nat) :
    (immUnsigned imm).getLsbD j = (decide (j < 16) && imm.getLsbD j) := by
  rw [BitVec.getLsbD, immUnsigned_toNat]
  by_cases h : j < 16
  · simp [h, BitVec.getLsbD]
  · simp only [h, decide_false, Bool.false_and]
    exact Nat.testBit_lt_two_pow (Nat.lt_of_lt_of_le imm.isLt (Nat.pow_le_pow_right (by decide) (by omega)))

theorem coefficient_toNat (k : BitVec 8) : (coefficient k).toNat = k.toNat * 16777216 := by
  unfold coefficient; rw [BitVec.toNat_append]; simp [Nat.shiftLeft_eq]

theorem coefficient_toInt (k : BitVec 8) : (coefficient k).toInt = k.toInt * 16777216 := by
  have h := coefficient_toNat k
  rw [BitVec.toInt_eq_toNat_cond, BitVec.toInt_eq_toNat_cond, h]
  split <;> split <;> omega

theorem storedHalf_toNat (v : Word) : (storedHalf v).toNat = v.toNat / 65536 := by
  have h := v.isLt
  simp only [storedHalf, BitVec.extractLsb_toNat, Nat.shiftRight_eq_div_pow]
  omega

theorem storedHalf_toInt (v : Word) : (storedHalf v).toInt = v.toInt / 65536 := by
  have h := storedHalf_toNat v
  rw [BitVec.toInt_eq_toNat_cond, BitVec.toInt_eq_toNat_cond, h]
  split <;> split <;> omega

theorem shiftCount_toNat (v : Word) : (shiftCount v).toNat = v.toNat % 32 := by
  simp only [shiftCount, BitVec.extractLsb_toNat, Nat.shiftRight_eq_div_pow]; omega

theorem indexAddr_toNat (v : Word) : (indexAddr v).toNat = v.toNat % 32768 := by
  simp only [indexAddr, BitVec.extractLsb_toNat, Nat.shiftRight_eq_div_pow]; omega

theorem indexMreg_val (v : Word) : (indexMreg v).val = v.toNat % 128 := by
  have h : (indexMreg v).val = (v.extractLsb 6 0).toNat := rfl
  rw [h]; simp only [BitVec.extractLsb_toNat, Nat.shiftRight_eq_div_pow]; omega

theorem interpIndex_toNat (v : Word) : (interpIndex v).toNat = v.toNat / 65536 % 32768 := by
  simp only [interpIndex, BitVec.extractLsb_toNat, Nat.shiftRight_eq_div_pow]

theorem interpCoef_toNat (v : Word) : (interpCoef v).toNat = v.toNat % 65536 * 32768 := by
  have h : (v.extractLsb 15 0).toNat = v.toNat % 65536 := by
    simp only [BitVec.extractLsb_toNat, Nat.shiftRight_eq_div_pow]; omega
  have e : interpCoef v = (0#1 ++ v.extractLsb 15 0 : BitVec 17) ++ 0#15 := rfl
  rw [e, BitVec.toNat_append, BitVec.toNat_append, h]
  simp [Nat.shiftLeft_eq]

theorem interpCoef_toInt (v : Word) : (interpCoef v).toInt = (v.toNat % 65536 * 32768 : Nat) := by
  rw [BitVec.toInt_eq_toNat_cond, interpCoef_toNat]
  split <;> omega

theorem sshiftRight_toInt {w : Nat} (v : BitVec w) (n : Nat) : (v.sshiftRight n).toInt = v.toInt / 2 ^ n := by
  rw [BitVec.toInt_sshiftRight, Int.shiftRight_eq_div_pow]; norm_cast

theorem headroom32_toInt (v : Word) : (headroom32 v).toInt = v.toInt / 8 := sshiftRight_toInt v 3

theorem headroom16_toInt (p : Params) (v : Half) : (headroom16 p v).toInt = headroomValue p v := by
  unfold headroom16 headroomValue
  split
  · rw [sshiftRight_toInt, upperHalf_toInt]; rfl
  · rw [upperHalf_toInt, sshiftRight_toInt]; rfl

/-! ### Arithmetic -/

theorem addSat_toInt (a b : Word) : (addSat a b).toInt = clamp32 (a.toInt + b.toInt) := sat32_toInt _

theorem subSat_toInt (a b : Word) : (subSat a b).toInt = clamp32 (a.toInt - b.toInt) := sat32_toInt _

theorem negSat_toInt (v : Word) : (negSat v).toInt = clamp32 (-v.toInt) := by
  rw [negSat, sat32_toInt, Int.zero_sub]

theorem shiftLeft_toNat (v : Word) (n : BitVec 5) : (shiftLeft v n).toNat = v.toNat * 2 ^ n.toNat % 4294967296 := by
  simp [shiftLeft, BitVec.toNat_shiftLeft, Nat.shiftLeft_eq]

theorem shiftLeftSat_toInt (v : Word) (n : BitVec 5) : (shiftLeftSat v n).toInt = clamp32 (v.toInt * 2 ^ n.toNat) :=
  sat32_toInt _

theorem shiftRight_toNat (v : Word) (n : BitVec 5) : (shiftRight v n).toNat = v.toNat / 2 ^ n.toNat := by
  simp [shiftRight, BitVec.toNat_ushiftRight, Nat.shiftRight_eq_div_pow]

theorem shiftRightArith_toInt (v : Word) (n : BitVec 5) : (shiftRightArith v n).toInt = v.toInt / 2 ^ n.toNat :=
  sshiftRight_toInt v n.toNat

theorem fracMul_toInt (a b : Word) : (fracMul a b).toInt = clamp64 (2 * a.toInt * b.toInt) := sat64_toInt _

theorem macAcc_toInt (s : State) (a b : Word) : (macAcc s.par s.acc64 a b).toInt = macSum s a.toInt b.toInt := by
  unfold macAcc macSum
  split <;> rw [sat64_toInt]
  rw [fracMul_toInt]

theorem upper_toInt (v : Long) : (v.extractLsb 63 32 : Word).toInt = v.toInt / 4294967296 := by
  have hv := v.isLt
  have h : (v.extractLsb 63 32 : Word).toNat = v.toNat / 4294967296 := by
    simp only [BitVec.extractLsb_toNat, Nat.shiftRight_eq_div_pow]; omega
  rw [BitVec.toInt_eq_toNat_cond, BitVec.toInt_eq_toNat_cond, h]
  split <;> split <;> omega

theorem mulUpper_toInt (a b : Word) : (mulUpper a b).toInt = clamp64 (2 * a.toInt * b.toInt) / 4294967296 := by
  rw [mulUpper, upper_toInt, fracMul_toInt]

theorem sat64Upper_toInt (acc : Long) : (sat64Upper acc).toInt = clamp32 (acc.toInt / 4294967296 * 8) := by
  rw [sat64Upper, sat32_toInt]; congr 2; exact upper_toInt acc

theorem absWord_cases (v : Word) :
    (0 ≤ v.toInt ∧ absWord v = v) ∨ (v = 0x80000000#32 ∧ absWord v = absMin)
      ∨ (v.toInt < 0 ∧ v ≠ 0x80000000#32 ∧ (absWord v).toInt = -v.toInt) := by
  unfold absWord
  split
  · next h => exact .inl ⟨h, rfl⟩
  · next h =>
    split
    · next h' => exact .inr (.inl ⟨h', rfl⟩)
    · next h' =>
      refine .inr (.inr ⟨by omega, h', ?_⟩)
      rw [BitVec.zero_sub, BitVec.toInt_neg_of_ne_intMin]
      exact h'

end Sys2Proof.Machine
end

