-- ==== Sys2Proof/Laws/Ops.lean ====
section
/-! SUPPORT. One lemma for each shared operation of Ops.lean, Mac.lean, Loader.lean and Step.lean that says once everything it
can do; later proofs cite it and do not unfold the operation. -/

namespace Sys2Proof.Machine

/-! ### What each update changes -/

theorem SameOutside.refl (s : State) : SameOutside s s :=
  ⟨rfl, rfl, rfl, rfl, rfl, rfl, rfl, fun _ => rfl, rfl, rfl, rfl, rfl⟩

theorem changes_setPc (s : State) (t : Nat) : Changes {} s (s.setPc t) :=
  { core := fun _ _ => rfl, acc32 := fun _ => rfl, acc64 := fun _ => rfl, mreg := fun _ _ => rfl, delay := fun _ _ => rfl
    sfr := fun n _ => by cases n <;> rfl
    out := fun _ _ => ⟨rfl, rfl⟩, user := fun _ _ => rfl
    outside := ⟨rfl, rfl, rfl, rfl, rfl, rfl, rfl, fun _ => rfl, rfl, rfl, rfl, rfl⟩ }

theorem changes_acc32 (s : State) (v : Word) : Changes .toAcc32 s (s.setAcc32 v).advance :=
  { core := fun _ _ => rfl, acc32 := fun h => Bool.noConfusion h, acc64 := fun _ => rfl, mreg := fun _ _ => rfl
    delay := fun _ _ => rfl
    sfr := fun n _ => by cases n <;> rfl
    out := fun _ _ => ⟨rfl, rfl⟩, user := fun _ _ => rfl
    outside := ⟨rfl, rfl, rfl, rfl, rfl, rfl, rfl, fun _ => rfl, rfl, rfl, rfl, rfl⟩ }

theorem changes_acc64 (s : State) (v : Long) : Changes .toAcc64 s (s.setAcc64 v).advance :=
  { core := fun _ _ => rfl, acc32 := fun _ => rfl, acc64 := fun h => Bool.noConfusion h, mreg := fun _ _ => rfl
    delay := fun _ _ => rfl
    sfr := fun n _ => by cases n <;> rfl
    out := fun _ _ => ⟨rfl, rfl⟩, user := fun _ _ => rfl
    outside := ⟨rfl, rfl, rfl, rfl, rfl, rfl, rfl, fun _ => rfl, rfl, rfl, rfl, rfl⟩ }

theorem get_set_same {α : Type} {k : Nat} (xs : Vector α k) (n : Fin k) (v : α) : (xs.set n.val v n.isLt)[n] = v := by simp

theorem get_set_other {α : Type} {k : Nat} (xs : Vector α k) {n m : Fin k} (v : α) (h : m ≠ n) :
    (xs.set n.val v n.isLt)[m] = xs[m] := by
  have : n.val ≠ m.val := fun e => h (Fin.ext e.symm)
  simp [this]

theorem changes_core (s : State) (n : Fin 16) (v : Word) : Changes { core := [n] } s (s.setCore n v).advance :=
  { core := fun _ h => get_set_other _ _ (by simpa using h)
    acc32 := fun _ => rfl, acc64 := fun _ => rfl, mreg := fun _ _ => rfl, delay := fun _ _ => rfl
    sfr := fun n _ => by cases n <;> rfl
    out := fun _ _ => ⟨rfl, rfl⟩, user := fun _ _ => rfl
    outside := ⟨rfl, rfl, rfl, rfl, rfl, rfl, rfl, fun _ => rfl, rfl, rfl, rfl, rfl⟩ }

theorem changes_mreg (s : State) (m : Fin 128) (v : Word) : Changes { mreg := [m] } s (s.setMreg m v).advance :=
  { core := fun _ _ => rfl, acc32 := fun _ => rfl, acc64 := fun _ => rfl
    mreg := fun _ h => get_set_other _ _ (by simpa using h)
    delay := fun _ _ => rfl
    sfr := fun n _ => by cases n <;> rfl
    out := fun _ _ => ⟨rfl, rfl⟩, user := fun _ _ => rfl
    outside := ⟨rfl, rfl, rfl, rfl, rfl, rfl, rfl, fun _ => rfl, rfl, rfl, rfl, rfl⟩ }

theorem changes_user (s : State) (u : Fin 2) (b : Bool) : Changes { user := [u] } s (s.setUser u b).advance :=
  { core := fun _ _ => rfl, acc32 := fun _ => rfl, acc64 := fun _ => rfl, mreg := fun _ _ => rfl, delay := fun _ _ => rfl
    sfr := fun n _ => by cases n <;> rfl
    out := fun _ _ => ⟨rfl, rfl⟩
    user := fun _ h => get_set_other _ _ (by simpa using h)
    outside := ⟨rfl, rfl, rfl, rfl, rfl, rfl, rfl, fun _ => rfl, rfl, rfl, rfl, rfl⟩ }

theorem delayAt_setDelay (s : State) (pa pb : DAddr) (v : Half) :
    (s.setDelay pa v).delayAt pb = if pb = pa then v else s.delayAt pb := by
  unfold State.delayAt
  rw [State.setDelay_delay, Memory.read_write]
  simp only [BitVec.toNat_inj]

theorem changes_delay (s : State) (pa : DAddr) (v : Half) : Changes (.toDelay pa) s (s.setDelay pa v).advance :=
  { core := fun _ _ => rfl, acc32 := fun _ => rfl, acc64 := fun _ => rfl, mreg := fun _ _ => rfl
    delay := fun pb h => by
      have hne : pb ≠ pa := by simpa [Touch.toDelay] using h
      exact (delayAt_setDelay s pa pb v).trans (if_neg hne)
    sfr := fun n _ => by cases n <;> rfl
    out := fun _ _ => ⟨rfl, rfl⟩, user := fun _ _ => rfl
    outside := ⟨rfl, rfl, rfl, rfl, rfl, rfl, rfl, fun _ => rfl, rfl, rfl, rfl, rfl⟩ }

/-! ### Ends of a meaning -/

theorem done_eq (s : State) : done s = .next s.advance := rfl

theorem toAcc32_completes {s : State} {v : Word} {P : State → Prop} (h : P (s.setAcc32 v).advance) :
    Completes .toAcc32 s (toAcc32 s v) P := ⟨_, rfl, rfl, changes_acc32 s v, h⟩

theorem toAcc64_completes {s : State} {v : Long} {P : State → Prop} (h : P (s.setAcc64 v).advance) :
    Completes .toAcc64 s (toAcc64 s v) P := ⟨_, rfl, rfl, changes_acc64 s v, h⟩

theorem accumulate_completes (s : State) (a b : Word) :
    Completes .toAcc64 s (accumulate s a b) fun t => t.acc64.toInt = macSum s a.toInt b.toInt :=
  toAcc64_completes (macAcc_toInt s a b)

/-- A CREGNA destination other than FLAGS takes the value, and nothing else changes. -/
theorem toDest_completes (s : State) {c : CReg} (v : Word) (h : c ≠ .flags) :
    Completes (destTouch c) s (toDest s c v) fun t => t.reg c = v := by
  cases c with
  | r n => exact ⟨_, rfl, rfl, changes_core s n v, get_set_same _ _ _⟩
  | acc32 => exact ⟨_, rfl, rfl, changes_acc32 s v, rfl⟩
  | flags => exact absurd rfl h

theorem toDest_flags (s : State) (v : Word) : toDest s .flags v = .fault .flagsAsDest := rfl

theorem toDelay_completes (s : State) (pa : DAddr) (v : Word) :
    Completes (.toDelay pa) s (toDelay s pa v) fun t => (t.delayAt pa).toInt = v.toInt / 65536 := by
  refine ⟨_, rfl, rfl, changes_delay s pa (storedHalf v), ?_⟩
  have h : (s.setDelay pa (storedHalf v)).advance.delayAt pa = storedHalf v :=
    (delayAt_setDelay s pa pa _).trans (if_pos rfl)
  show ((s.setDelay pa (storedHalf v)).advance.delayAt pa).toInt = _
  rw [h, storedHalf_toInt]

theorem dread_toInt (s : State) (pa : DAddr) : (s.dread pa).toInt = (s.delayAt pa).toInt * 65536 := upperHalf_toInt _

/-! ### SFR access -/

theorem append_toNat {a b : Nat} (x : BitVec a) (y : BitVec b) : (x ++ y).toNat = x.toNat * 2 ^ b + y.toNat := by
  rw [BitVec.toNat_append, ← Nat.shiftLeft_add_eq_or_of_lt y.isLt, Nat.shiftLeft_eq]

/-- Every readable SFR delivers what the table gives it; OUT0-OUT3 deliver nothing. -/
theorem sfrRead_shows (s : State) (n : Sfr) :
    (n.readable = true → ∃ v, s.sfrRead n = some v ∧ s.sfrShows n v) ∧ (n.readable = false → s.sfrRead n = none) := by
  refine ⟨fun h => ?_, fun h => ?_⟩
  · cases n with
    | out k => simp [Sfr.readable] at h
    | pin => refine ⟨_, rfl, ?_⟩; have := s.env.pin.isLt; simp only [State.sfrShows, append_toNat]; omega
    | switch => refine ⟨_, rfl, ?_⟩; have := s.env.switch.isLt; simp only [State.sfrShows, append_toNat]; omega
    | potK k => refine ⟨_, rfl, ?_⟩; have := (s.ctl.potK[k]).isLt; simp only [State.sfrShows, append_toNat]; omega
    | pot k =>
      refine ⟨_, rfl, ?_⟩
      have := ((Config.undefinedBits s.drawIx).extractLsb 18 0).isLt
      simp only [State.sfrShows, append_toNat, BitVec.toNat_ofNat]
      omega
    | potSmth k => refine ⟨_, rfl, ?_⟩; simp only [State.sfrShows, append_toNat, BitVec.toNat_ofNat]; omega
    | _ => exact ⟨_, rfl, rfl⟩
  · cases n <;> first | rfl | simp [Sfr.readable] at h

/-- A writable SFR takes the value and no other SFR changes; the others are not written. -/
theorem sfrWrite_holds (s : State) (n : Sfr) (v : Word) :
    (n.writable = true → ∃ t, s.sfrWrite n v = some t ∧ Changes { sfr := [n] } s t.advance ∧ t.pc = s.pc
      ∧ t.sfrHolds n v) ∧ (n.writable = false → s.sfrWrite n v = none) := by
  have low5 (x : Word) : (x.extractLsb 4 0).toNat = x.toNat % 32 := by
    simp only [BitVec.extractLsb_toNat, Nat.shiftRight_eq_div_pow]; omega
  refine ⟨fun h => ?_, fun h => ?_⟩
  · cases n with
    | out k =>
      refine ⟨_, rfl, ?_, rfl, get_set_same _ _ _, get_set_same _ _ _⟩
      exact { core := fun _ _ => rfl, acc32 := fun _ => rfl, acc64 := fun _ => rfl, mreg := fun _ _ => rfl
              delay := fun _ _ => rfl
              sfr := fun n _ => by cases n <;> rfl
              out := fun j hj => by
                have hne : j ≠ k := fun e => hj (by simp [e])
                exact ⟨get_set_other _ _ hne, get_set_other _ _ hne⟩
              user := fun _ _ => rfl
              outside := ⟨rfl, rfl, rfl, rfl, rfl, rfl, rfl, fun _ => rfl, rfl, rfl, rfl, rfl⟩ }
    | potK k =>
      refine ⟨_, rfl, ?_, rfl, ?_⟩
      · exact { core := fun _ _ => rfl, acc32 := fun _ => rfl, acc64 := fun _ => rfl, mreg := fun _ _ => rfl
                delay := fun _ _ => rfl
                sfr := fun n hn => by
                  cases n <;> first | rfl | skip
                  next j =>
                    have hne : j ≠ k := fun e => hn (by simp [e])
                    simp only [State.sfrRead, State.advance_ctl, State.advance_drawIx, State.setCtl_ctl,
                      State.setCtl_drawIx, get_set_other _ _ hne]
                out := fun _ _ => ⟨rfl, rfl⟩, user := fun _ _ => rfl
                outside := ⟨rfl, rfl, rfl, rfl, rfl, rfl, rfl, fun _ => rfl, rfl, rfl, rfl, rfl⟩ }
      · simp only [State.sfrHolds, State.setCtl_ctl, get_set_same, low5]
    | lfoF k =>
      refine ⟨_, rfl, ?_, rfl, get_set_same _ _ _⟩
      exact { core := fun _ _ => rfl, acc32 := fun _ => rfl, acc64 := fun _ => rfl, mreg := fun _ _ => rfl
              delay := fun _ _ => rfl
              sfr := fun n hn => by
                cases n <;> first | rfl | skip
                next j =>
                  have hne : j ≠ k := fun e => hn (by simp [e])
                  simp only [State.sfrRead, State.advance_ctl, State.setCtl_ctl, get_set_other _ _ hne]
              out := fun _ _ => ⟨rfl, rfl⟩, user := fun _ _ => rfl
              outside := ⟨rfl, rfl, rfl, rfl, rfl, rfl, rfl, fun _ => rfl, rfl, rfl, rfl, rfl⟩ }
    | rampF k =>
      refine ⟨_, rfl, ?_, rfl, get_set_same _ _ _⟩
      exact { core := fun _ _ => rfl, acc32 := fun _ => rfl, acc64 := fun _ => rfl, mreg := fun _ _ => rfl
              delay := fun _ _ => rfl
              sfr := fun n hn => by
                cases n <;> first | rfl | skip
                next j =>
                  have hne : j ≠ k := fun e => hn (by simp [e])
                  simp only [State.sfrRead, State.advance_ctl, State.setCtl_ctl, get_set_other _ _ hne]
              out := fun _ _ => ⟨rfl, rfl⟩, user := fun _ _ => rfl
              outside := ⟨rfl, rfl, rfl, rfl, rfl, rfl, rfl, fun _ => rfl, rfl, rfl, rfl, rfl⟩ }
    | maxTempo =>
      refine ⟨_, rfl, ?_, rfl, rfl⟩
      exact { core := fun _ _ => rfl, acc32 := fun _ => rfl, acc64 := fun _ => rfl, mreg := fun _ _ => rfl
              delay := fun _ _ => rfl
              sfr := fun n hn => by cases n <;> first | rfl | simp at hn
              out := fun _ _ => ⟨rfl, rfl⟩, user := fun _ _ => rfl
              outside := ⟨rfl, rfl, rfl, rfl, rfl, rfl, rfl, fun _ => rfl, rfl, rfl, rfl, rfl⟩ }
    | _ => simp [Sfr.writable] at h
  · cases n <;> first | rfl | simp [Sfr.writable] at h

/-! ### Jumps -/

theorem jumpOk_iff (s : State) (o : BitVec 12) :
    (s.pc < s.jumpTarget o ∧ s.jumpTarget o < s.progLen) ↔ s.jumpOk o := by
  unfold State.jumpTarget State.jumpOk; omega

/-- A well-formed jump goes where its condition says and changes pc only. -/
theorem jumpIf_jumps {s : State} {o : BitVec 12} (taken : Bool) (cond : Prop) (hc : taken = true ↔ cond)
    (h : s.jumpOk o) : JumpsWhen cond o s (jumpIf s taken o) := by
  refine ⟨s.setPc (if taken then s.jumpTarget o else s.pc + 1), if_pos ((jumpOk_iff s o).mpr h), changes_setPc _ _,
    fun h1 => ?_, fun h1 => ?_⟩
  · simp [hc.mpr h1, State.jumpTarget]
  · have : taken = false := by cases taken <;> simp_all
    simp [this]

theorem jumpIf_fault {s : State} {o : BitVec 12} (taken : Bool) (h : ¬ s.jumpOk o) :
    jumpIf s taken o = .fault .jumpOutOfRange := if_neg fun hj => h ((jumpOk_iff s o).mp hj)

/-- Every outcome of a jump. -/
theorem jumpIf_next {s t : State} {o : BitVec 12} {taken : Bool} (h : jumpIf s taken o = .next t) :
    ∃ n, t = s.setPc n ∧ s.pc < n ∧ n < s.progLen := by
  unfold jumpIf at h
  split at h
  · next hr =>
    injection h with h
    refine ⟨_, h.symm, ?_, ?_⟩ <;> split <;> omega
  · cases h

/-! ### All-pass halves -/

theorem allPassA_completes (s : State) (d k : Word) :
    Completes { acc32 := true, core := [15] } s (allPassA s d k) fun t =>
      t.reg .param0 = d ∧ t.acc32 = apmac s.par s.acc32 d k := by
  refine ⟨_, rfl, rfl, ?_, get_set_same _ (15 : Fin 16) _, rfl⟩
  exact { core := fun _ h => get_set_other _ _ (by simpa using h)
          acc32 := fun h => Bool.noConfusion h, acc64 := fun _ => rfl, mreg := fun _ _ => rfl, delay := fun _ _ => rfl
          sfr := fun n _ => by cases n <;> rfl
          out := fun _ _ => ⟨rfl, rfl⟩, user := fun _ _ => rfl
          outside := ⟨rfl, rfl, rfl, rfl, rfl, rfl, rfl, fun _ => rfl, rfl, rfl, rfl, rfl⟩ }

theorem allPassBDelay_completes (s : State) (pa : DAddr) (k : Word) :
    Completes { acc32 := true, delay := [pa] } s (allPassBDelay s pa k) fun t =>
      (t.delayAt pa).toInt = s.acc32.toInt / 65536 ∧ t.acc32 = apmac s.par (s.reg .param0) s.acc32 k := by
  refine ⟨_, rfl, rfl, ?_, ?_, rfl⟩
  · exact { core := fun _ _ => rfl
            acc32 := fun h => Bool.noConfusion h, acc64 := fun _ => rfl, mreg := fun _ _ => rfl
            delay := fun pb h => by
              have hne : pb ≠ pa := by simpa using h
              exact (delayAt_setDelay s pa pb _).trans (if_neg hne)
            sfr := fun n _ => by cases n <;> rfl
            out := fun _ _ => ⟨rfl, rfl⟩, user := fun _ _ => rfl
            outside := ⟨rfl, rfl, rfl, rfl, rfl, rfl, rfl, fun _ => rfl, rfl, rfl, rfl, rfl⟩ }
  · have h : ((s.setDelay pa (storedHalf s.acc32)).setAcc32 (allPassB s k)).advance.delayAt pa = storedHalf s.acc32 :=
      (delayAt_setDelay s pa pa _).trans (if_pos rfl)
    show (((s.setDelay pa (storedHalf s.acc32)).setAcc32 (allPassB s k)).advance.delayAt pa).toInt = _
    rw [h, storedHalf_toInt]

/-! ### The step -/

theorem thenDrive_next {o : Out} {t : State} (h : thenDrive o = .next t) : ∃ u, o = .next u ∧ t = u.drive := by
  cases o with
  | next u => injection h with h; exact ⟨u, rfl, h.symm⟩
  | fault f => cases h
  | refused r => cases h

theorem fetchDecode_ok {s : State} {i : Instr} : fetchDecode s = .ok i ↔ decode (Memory.read s.iram s.pc) = .ok i := by
  unfold fetchDecode State.fetch
  cases decode (Memory.read s.iram s.pc) <;> simp

/-- Everything the boundary between two iterations can do. -/
theorem boundary_next {s t : State} (h : boundary s = .next t) :
    (∃ p, s.pending = some p ∧ p.wf = true ∧ t = (s.programChange p).driveInputs)
      ∨ (s.pending = none ∧ s.progLen ≠ 0 ∧ t = s.tick.drive) := by
  unfold boundary at h
  split at h
  · next p hp =>
    split at h
    · next hw => injection h with h; exact .inl ⟨p, hp, hw, h.symm⟩
    · cases h
  · next hp =>
    split at h
    · cases h
    · next hl => injection h with h; exact .inr ⟨hp, hl, h.symm⟩

/-- Everything a step with a next state can be: an instruction, a program change or a tick, and the hardware's drive. -/
theorem step_next {s t : State} (h : step s = .next t) :
    (∃ i u, s.pc < s.progLen ∧ decode (Memory.read s.iram s.pc) = .ok i ∧ exec i s = .next u ∧ t = u.drive)
      ∨ (s.progLen ≤ s.pc ∧ ∃ p, s.pending = some p ∧ p.wf = true ∧ t = (s.programChange p).driveInputs)
      ∨ (s.progLen ≤ s.pc ∧ s.pending = none ∧ s.progLen ≠ 0 ∧ t = s.tick.drive) := by
  unfold step at h
  split at h
  · next hl =>
    split at h
    · next i hi =>
      obtain ⟨u, hu, rfl⟩ := thenDrive_next h
      exact .inl ⟨i, u, hl, fetchDecode_ok.mp hi, hu, rfl⟩
    · cases h
  · next hl =>
    rcases boundary_next h with ⟨p, hp, hw, rfl⟩ | ⟨hp, hn, rfl⟩
    · exact .inr (.inl ⟨by omega, p, hp, hw, rfl⟩)
    · exact .inr (.inr ⟨by omega, hp, hn, rfl⟩)

theorem run_next (M : Host.Core) (k : Nat) {s t : M.State} (h : M.step s = .next t) : M.run (k + 1) s = M.run k t := by
  simp only [Host.Core.run, h]

theorem run_fault (M : Host.Core) (k : Nat) {s : M.State} {f : M.Fault} (h : M.step s = .fault f) :
    M.run (k + 1) s = .fault f := by
  simp only [Host.Core.run, h]

theorem run_step_next {s t : State} (k : Nat) (h : step s = .next t) :
    Host.Core.run Sys2Proof.core (k + 1) s = Host.Core.run Sys2Proof.core k t := run_next Sys2Proof.core k h

theorem run_step_fault {s : State} {f : Fault} (k : Nat) (h : step s = .fault f) :
    Host.Core.run Sys2Proof.core (k + 1) s = .fault f := run_fault Sys2Proof.core k h

/-! ### Program change -/

/-- A register that no entry names keeps its value when a header is applied. -/
theorem foldl_set_other {k : Nat} (es : List (Fin k × Word)) (v : Vector Word k) (n : Fin k) (hn : ∀ e ∈ es, e.1 ≠ n) :
    (es.foldl (fun v e => v.set e.1.val e.2 e.1.isLt) v)[n] = v[n] := by
  induction es generalizing v with
  | nil => rfl
  | cons d rest ih =>
    rw [List.foldl_cons, ih _ fun e he => hn e (List.mem_cons_of_mem _ he),
      get_set_other _ _ (hn d List.mem_cons_self).symm]

/-- An entry whose key stands alone in the header is what the register holds after the header is applied. -/
theorem foldl_set_mem {k : Nat} (es : List (Fin k × Word)) (v : Vector Word k) (hnd : (es.map Prod.fst).Nodup)
    (e : Fin k × Word) (he : e ∈ es) : (es.foldl (fun v e => v.set e.1.val e.2 e.1.isLt) v)[e.1] = e.2 := by
  induction es generalizing v with
  | nil => cases he
  | cons d rest ih =>
    simp only [List.map_cons, List.nodup_cons] at hnd
    rw [List.foldl_cons]
    rcases List.mem_cons.mp he with rfl | hr
    · rw [foldl_set_other _ _ _ fun f hf hc => hnd.1 (List.mem_map.mpr ⟨f, hf, hc⟩), get_set_same]
    · exact ih _ hnd.2 hr

/-- A `.SREG` entry changes the settable registers only. -/
theorem presetSfr_other (s : State) (e : Settable × Word) :
    (presetSfr s e).iram = s.iram ∧ (presetSfr s e).progLen = s.progLen ∧ (presetSfr s e).delay = s.delay
      ∧ (presetSfr s e).acc32 = s.acc32 ∧ (presetSfr s e).sampleCnt = s.sampleCnt ∧ (presetSfr s e).core = s.core
      ∧ (presetSfr s e).mreg = s.mreg ∧ (presetSfr s e).acc64 = s.acc64 ∧ (presetSfr s e).pc = s.pc
      ∧ (presetSfr s e).dcnt = s.dcnt ∧ (presetSfr s e).dac = s.dac ∧ (presetSfr s e).pending = s.pending := by
  obtain ⟨r, v⟩ := e
  cases r <;> exact ⟨rfl, rfl, rfl, rfl, rfl, rfl, rfl, rfl, rfl, rfl, rfl, rfl⟩

/-- The same for all `.SREG` entries of a header. -/
theorem presetSfrs_other (es : List (Settable × Word)) (s : State) :
    (es.foldl presetSfr s).iram = s.iram ∧ (es.foldl presetSfr s).progLen = s.progLen
      ∧ (es.foldl presetSfr s).delay = s.delay ∧ (es.foldl presetSfr s).acc32 = s.acc32
      ∧ (es.foldl presetSfr s).sampleCnt = s.sampleCnt ∧ (es.foldl presetSfr s).core = s.core
      ∧ (es.foldl presetSfr s).mreg = s.mreg ∧ (es.foldl presetSfr s).acc64 = s.acc64
      ∧ (es.foldl presetSfr s).pc = s.pc ∧ (es.foldl presetSfr s).dcnt = s.dcnt
      ∧ (es.foldl presetSfr s).dac = s.dac ∧ (es.foldl presetSfr s).pending = s.pending := by
  induction es generalizing s with
  | nil => exact ⟨rfl, rfl, rfl, rfl, rfl, rfl, rfl, rfl, rfl, rfl, rfl, rfl⟩
  | cons e rest ih =>
    have h1 := ih (presetSfr s e)
    have h2 := presetSfr_other s e
    simpa only [List.foldl_cons, h2] using h1

end Sys2Proof.Machine
end

