-- ==== Sys2Proof/Laws/PerInstr.lean ====
section
/-! SUPPORT. The family EncodedWord: the word of every instruction has the fixed bits of its row of the opcode map
(30_encoding.md R138, R139), one lemma for each constructor. -/

namespace Sys2Proof.Laws

/-- The encoding of `i` belongs to the row of its mnemonic. -/
def EncodedWord.Statement (i : Instr) : Prop :=
  ∃ r ∈ opcodeRows, r.mnemonic = i.mnemonic ∧ r.accepts (encode i) = true

/-- Masking a word masks its fields. -/
theorem wordOf_and (i : BitVec 7) (r : BitVec 8) (m : Half) (kr : BitVec 8) (km : Half) :
    wordOf i r m &&& (0x7F#7 ++ 1#1 ++ kr ++ km) = wordOf i (r &&& kr) (m &&& km) := by
  have h : i &&& 0x7F#7 = i := by revert i; decide
  unfold wordOf
  rw [BitVec.and_append, BitVec.and_append, BitVec.and_append, h]
  rfl

theorem regField_and (c : CReg) : regField c &&& 0xE0#8 = 0#8 := by
  have h (x : BitVec 5) : (0#3 ++ x) &&& 0xE0#8 = 0#8 := by revert x; decide
  exact h _

theorem low5_and (x : BitVec 5) : (0#11 ++ x : Half) &&& 0xFFE0#16 = 0#16 := by revert x; decide

theorem low6_and (x : BitVec 6) : (0#10 ++ x : Half) &&& 0xFFC0#16 = 0#16 := by revert x; decide

theorem low7_and (x : BitVec 7) : (0#9 ++ x : Half) &&& 0xFF80#16 = 0#16 := by revert x; decide

theorem low12_and (x : BitVec 12) : (0#4 ++ x : Half) &&& 0xF000#16 = 0#16 := by
  have h : (0xF000#16 : Half) = 0xF#4 ++ 0#12 := by decide
  rw [h, BitVec.and_append, BitVec.and_zero]; rfl

theorem addrField_and (a : DAddr) : addrField a &&& 0x8000#16 = 0#16 := by
  have h : (0x8000#16 : Half) = 1#1 ++ 0#15 := by decide
  rw [addrField, h, BitVec.and_append, BitVec.and_zero]; rfl

/-- A word belongs to row `k` when its masked fields are the row's. -/
theorem statement_of_fields {i : Instr} (k : Nat) (hk : k < opcodeRows.length) (f : BitVec 7) (r : BitVec 8) (m : Half)
    (kr : BitVec 8) (km : Half) (he : encode i = wordOf f r m) (hm : opcodeRows[k].mnemonic = i.mnemonic)
    (hmask : opcodeRows[k].mask = 0x7F#7 ++ 1#1 ++ kr ++ km) (hr : r &&& kr = 0) (hk' : m &&& km = 0)
    (hmatch : wordOf f 0 0 = opcodeRows[k].matchBits) : EncodedWord.Statement i :=
  ⟨opcodeRows[k], List.getElem_mem hk, hm, by
    rw [Row.accepts, he, hmask, wordOf_and, hr, hk', hmatch]; exact beq_self_eq_true _⟩

theorem EncodedWord.abs (c : CReg) : EncodedWord.Statement (.abs c) :=
  statement_of_fields 0 (by decide) 0x00 (regField c) 0 0xE0#8 0xFFFF#16 rfl rfl rfl (regField_and c) rfl rfl

theorem EncodedWord.clracc64 : EncodedWord.Statement .clracc64 :=
  statement_of_fields 1 (by decide) 0x01 0 0 0xFF#8 0xFFFF#16 rfl rfl rfl rfl rfl rfl

theorem EncodedWord.addi (c : CReg) (imm : Half) : EncodedWord.Statement (.addi c imm) :=
  statement_of_fields 2 (by decide) 0x02 (regField c) imm 0xE0#8 0#16 rfl rfl rfl (regField_and c) BitVec.and_zero rfl

theorem EncodedWord.add (x y : CReg) : EncodedWord.Statement (.add x y) :=
    statement_of_fields 3 (by decide) 0x03 (regField x) (0#11 ++ y.code) 0xE0#8 0xFFE0#16 rfl rfl rfl (regField_and
    x) (low5_and _) rfl

theorem EncodedWord.adds (x y : CReg) : EncodedWord.Statement (.adds x y) :=
    statement_of_fields 4 (by decide) 0x04 (regField x) (0#11 ++ y.code) 0xE0#8 0xFFE0#16 rfl rfl rfl (regField_and
    x) (low5_and _) rfl

theorem EncodedWord.addsi (c : CReg) (imm : Half) : EncodedWord.Statement (.addsi c imm) :=
  statement_of_fields 5 (by decide) 0x05 (regField c) imm 0xE0#8 0#16 rfl rfl rfl (regField_and c) BitVec.and_zero rfl

theorem EncodedWord.sub (x y : CReg) : EncodedWord.Statement (.sub x y) :=
    statement_of_fields 6 (by decide) 0x06 (regField x) (0#11 ++ y.code) 0xE0#8 0xFFE0#16 rfl rfl rfl (regField_and
    x) (low5_and _) rfl

theorem EncodedWord.subs (x y : CReg) : EncodedWord.Statement (.subs x y) :=
    statement_of_fields 7 (by decide) 0x07 (regField x) (0#11 ++ y.code) 0xE0#8 0xFFE0#16 rfl rfl rfl (regField_and
    x) (low5_and _) rfl

theorem EncodedWord.sl (c : CReg) (n : BitVec 5) : EncodedWord.Statement (.sl c n) :=
    statement_of_fields 8 (by decide) 0x08 (regField c) (0#11 ++ n) 0xE0#8 0xFFE0#16 rfl rfl rfl (regField_and c)
    (low5_and _) rfl

theorem EncodedWord.slr (x y : CReg) : EncodedWord.Statement (.slr x y) :=
    statement_of_fields 9 (by decide) 0x09 (regField x) (0#11 ++ y.code) 0xE0#8 0xFFE0#16 rfl rfl rfl (regField_and
    x) (low5_and _) rfl

theorem EncodedWord.sls (c : CReg) (n : BitVec 5) : EncodedWord.Statement (.sls c n) :=
    statement_of_fields 10 (by decide) 0x0A (regField c) (0#11 ++ n) 0xE0#8 0xFFE0#16 rfl rfl rfl (regField_and c)
    (low5_and _) rfl

theorem EncodedWord.slsr (x y : CReg) : EncodedWord.Statement (.slsr x y) :=
    statement_of_fields 11 (by decide) 0x0B (regField x) (0#11 ++ y.code) 0xE0#8 0xFFE0#16 rfl rfl rfl (regField_and
    x) (low5_and _) rfl

theorem EncodedWord.sr (c : CReg) (n : BitVec 5) : EncodedWord.Statement (.sr c n) :=
    statement_of_fields 12 (by decide) 0x0C (regField c) (0#11 ++ n) 0xE0#8 0xFFE0#16 rfl rfl rfl (regField_and c)
    (low5_and _) rfl

theorem EncodedWord.srr (x y : CReg) : EncodedWord.Statement (.srr x y) :=
    statement_of_fields 13 (by decide) 0x0D (regField x) (0#11 ++ y.code) 0xE0#8 0xFFE0#16 rfl rfl rfl (regField_and
    x) (low5_and _) rfl

theorem EncodedWord.sra (c : CReg) (n : BitVec 5) : EncodedWord.Statement (.sra c n) :=
    statement_of_fields 14 (by decide) 0x0E (regField c) (0#11 ++ n) 0xE0#8 0xFFE0#16 rfl rfl rfl (regField_and c)
    (low5_and _) rfl

theorem EncodedWord.srar (x y : CReg) : EncodedWord.Statement (.srar x y) :=
    statement_of_fields 15 (by decide) 0x0F (regField x) (0#11 ++ y.code) 0xE0#8 0xFFE0#16 rfl rfl rfl (regField_and
    x) (low5_and _) rfl

theorem EncodedWord.macrr (x y : CReg) : EncodedWord.Statement (.macrr x y) :=
    statement_of_fields 16 (by decide) 0x10 (regField x) (0#11 ++ y.code) 0xE0#8 0xFFE0#16 rfl rfl rfl (regField_and
    x) (low5_and _) rfl

theorem EncodedWord.macri (c : CReg) (imm : Half) : EncodedWord.Statement (.macri c imm) :=
  statement_of_fields 17 (by decide) 0x11 (regField c) imm 0xE0#8 0#16 rfl rfl rfl (regField_and c) BitVec.and_zero rfl

theorem EncodedWord.macrd (c : CReg) (addr : DAddr) : EncodedWord.Statement (.macrd c addr) :=
    statement_of_fields 18 (by decide) 0x12 (regField c) (addrField addr) 0xE0#8 0x8000#16 rfl rfl rfl (regField_and
    c) (addrField_and addr) rfl

theorem EncodedWord.macid (k : BitVec 8) (addr : DAddr) : EncodedWord.Statement (.macid k addr) :=
    statement_of_fields 19 (by decide) 0x13 k (addrField addr) 0#8 0x8000#16 rfl rfl rfl BitVec.and_zero
    (addrField_and addr) rfl

theorem EncodedWord.machrr (x y : CReg) : EncodedWord.Statement (.machrr x y) :=
    statement_of_fields 20 (by decide) 0x14 (regField x) (0#11 ++ y.code) 0xE0#8 0xFFE0#16 rfl rfl rfl (regField_and
    x) (low5_and _) rfl

theorem EncodedWord.machri (c : CReg) (imm : Half) : EncodedWord.Statement (.machri c imm) :=
  statement_of_fields 21 (by decide) 0x15 (regField c) imm 0xE0#8 0#16 rfl rfl rfl (regField_and c) BitVec.and_zero rfl

theorem EncodedWord.machrd (c : CReg) (addr : DAddr) : EncodedWord.Statement (.machrd c addr) :=
    statement_of_fields 22 (by decide) 0x16 (regField c) (addrField addr) 0xE0#8 0x8000#16 rfl rfl rfl (regField_and
    c) (addrField_and addr) rfl

theorem EncodedWord.machid (k : BitVec 8) (addr : DAddr) : EncodedWord.Statement (.machid k addr) :=
    statement_of_fields 23 (by decide) 0x17 k (addrField addr) 0#8 0x8000#16 rfl rfl rfl BitVec.and_zero
    (addrField_and addr) rfl

theorem EncodedWord.multrr (x y : CReg) : EncodedWord.Statement (.multrr x y) :=
    statement_of_fields 24 (by decide) 0x18 (regField x) (0#11 ++ y.code) 0xE0#8 0xFFE0#16 rfl rfl rfl (regField_and
    x) (low5_and _) rfl

theorem EncodedWord.multri (c : CReg) (imm : Half) : EncodedWord.Statement (.multri c imm) :=
  statement_of_fields 25 (by decide) 0x19 (regField c) imm 0xE0#8 0#16 rfl rfl rfl (regField_and c) BitVec.and_zero rfl

theorem EncodedWord.neg (c : CReg) : EncodedWord.Statement (.neg c) :=
  statement_of_fields 26 (by decide) 0x1A (regField c) 0 0xE0#8 0xFFFF#16 rfl rfl rfl (regField_and c) rfl rfl

theorem EncodedWord.log2 (c : CReg) : EncodedWord.Statement (.log2 c) :=
  statement_of_fields 27 (by decide) 0x1B (regField c) 0 0xE0#8 0xFFFF#16 rfl rfl rfl (regField_and c) rfl rfl

theorem EncodedWord.exp2 (c : CReg) : EncodedWord.Statement (.exp2 c) :=
  statement_of_fields 28 (by decide) 0x1C (regField c) 0 0xE0#8 0xFFFF#16 rfl rfl rfl (regField_and c) rfl rfl

theorem EncodedWord.cpyCc (x y : CReg) : EncodedWord.Statement (.cpyCc x y) :=
    statement_of_fields 29 (by decide) 0x30 (regField x) (0#11 ++ y.code) 0xE0#8 0xFFE0#16 rfl rfl rfl (regField_and
    x) (low5_and _) rfl

theorem EncodedWord.cpyCm (c : CReg) (m : Fin 128) : EncodedWord.Statement (.cpyCm c m) :=
    statement_of_fields 30 (by decide) 0x31 (regField c) (0#9 ++ BitVec.ofFin (w := 7) m) 0xE0#8 0xFF80#16 rfl rfl
    rfl (regField_and c) (low7_and _) rfl

theorem EncodedWord.cpyCs (c : CReg) (n : Sfr) : EncodedWord.Statement (.cpyCs c n) :=
    statement_of_fields 31 (by decide) 0x32 (regField c) (0#10 ++ n.num) 0xE0#8 0xFFC0#16 rfl rfl rfl (regField_and
    c) (low6_and _) rfl

theorem EncodedWord.cpyMc (c : CReg) (m : Fin 128) : EncodedWord.Statement (.cpyMc c m) :=
    statement_of_fields 32 (by decide) 0x33 (regField c) (0#9 ++ BitVec.ofFin (w := 7) m) 0xE0#8 0xFF80#16 rfl rfl
    rfl (regField_and c) (low7_and _) rfl

theorem EncodedWord.cpySc (c : CReg) (n : Sfr) : EncodedWord.Statement (.cpySc c n) :=
    statement_of_fields 33 (by decide) 0x34 (regField c) (0#10 ++ n.num) 0xE0#8 0xFFC0#16 rfl rfl rfl (regField_and
    c) (low6_and _) rfl

theorem EncodedWord.cpyCmx (x y : CReg) : EncodedWord.Statement (.cpyCmx x y) :=
    statement_of_fields 34 (by decide) 0x35 (regField x) (0#11 ++ y.code) 0xE0#8 0xFFE0#16 rfl rfl rfl (regField_and
    x) (low5_and _) rfl

theorem EncodedWord.rdacc64u (c : CReg) : EncodedWord.Statement (.rdacc64u c) :=
  statement_of_fields 35 (by decide) 0x40 (regField c) 0 0xE0#8 0xFFFF#16 rfl rfl rfl (regField_and c) rfl rfl

theorem EncodedWord.rdacc64l (c : CReg) : EncodedWord.Statement (.rdacc64l c) :=
  statement_of_fields 36 (by decide) 0x41 (regField c) 0 0xE0#8 0xFFFF#16 rfl rfl rfl (regField_and c) rfl rfl

theorem EncodedWord.ldacc64u (c : CReg) : EncodedWord.Statement (.ldacc64u c) :=
  statement_of_fields 37 (by decide) 0x42 (regField c) 0 0xE0#8 0xFFFF#16 rfl rfl rfl (regField_and c) rfl rfl

theorem EncodedWord.ldacc64l (c : CReg) : EncodedWord.Statement (.ldacc64l c) :=
  statement_of_fields 38 (by decide) 0x43 (regField c) 0 0xE0#8 0xFFFF#16 rfl rfl rfl (regField_and c) rfl rfl

theorem EncodedWord.rddel (c : CReg) (addr : DAddr) : EncodedWord.Statement (.rddel c addr) :=
    statement_of_fields 39 (by decide) 0x44 (regField c) (addrField addr) 0xE0#8 0x8000#16 rfl rfl rfl (regField_and
    c) (addrField_and addr) rfl

theorem EncodedWord.wrdel (c : CReg) (addr : DAddr) : EncodedWord.Statement (.wrdel c addr) :=
    statement_of_fields 40 (by decide) 0x45 (regField c) (addrField addr) 0xE0#8 0x8000#16 rfl rfl rfl (regField_and
    c) (addrField_and addr) rfl

theorem EncodedWord.rddelx (x y : CReg) : EncodedWord.Statement (.rddelx x y) :=
    statement_of_fields 41 (by decide) 0x46 (regField x) (0#11 ++ y.code) 0xE0#8 0xFFE0#16 rfl rfl rfl (regField_and
    x) (low5_and _) rfl

theorem EncodedWord.wrdelx (x y : CReg) : EncodedWord.Statement (.wrdelx x y) :=
    statement_of_fields 42 (by decide) 0x47 (regField x) (0#11 ++ y.code) 0xE0#8 0xFFE0#16 rfl rfl rfl (regField_and
    x) (low5_and _) rfl

theorem EncodedWord.rddirx (x y : CReg) : EncodedWord.Statement (.rddirx x y) :=
    statement_of_fields 43 (by decide) 0x48 (regField x) (0#11 ++ y.code) 0xE0#8 0xFFE0#16 rfl rfl rfl (regField_and
    x) (low5_and _) rfl

theorem EncodedWord.wrdirx (x y : CReg) : EncodedWord.Statement (.wrdirx x y) :=
    statement_of_fields 44 (by decide) 0x49 (regField x) (0#11 ++ y.code) 0xE0#8 0xFFE0#16 rfl rfl rfl (regField_and
    x) (low5_and _) rfl

theorem EncodedWord.sat64 (c : CReg) : EncodedWord.Statement (.sat64 c) :=
  statement_of_fields 45 (by decide) 0x4A (regField c) 0 0xE0#8 0xFFFF#16 rfl rfl rfl (regField_and c) rfl rfl

theorem EncodedWord.wrdld (c : CReg) (imm : Half) : EncodedWord.Statement (.wrdld c imm) :=
  statement_of_fields 46 (by decide) 0x4B (regField c) imm 0xE0#8 0#16 rfl rfl rfl (regField_and c) BitVec.and_zero rfl

theorem EncodedWord.inv (c : CReg) : EncodedWord.Statement (.inv c) :=
  statement_of_fields 47 (by decide) 0x50 (regField c) 0 0xE0#8 0xFFFF#16 rfl rfl rfl (regField_and c) rfl rfl

theorem EncodedWord.or (x y : CReg) : EncodedWord.Statement (.or x y) :=
    statement_of_fields 48 (by decide) 0x51 (regField x) (0#11 ++ y.code) 0xE0#8 0xFFE0#16 rfl rfl rfl (regField_and
    x) (low5_and _) rfl

theorem EncodedWord.ori (c : CReg) (imm : Half) : EncodedWord.Statement (.ori c imm) :=
  statement_of_fields 49 (by decide) 0x52 (regField c) imm 0xE0#8 0#16 rfl rfl rfl (regField_and c) BitVec.and_zero rfl

theorem EncodedWord.and (x y : CReg) : EncodedWord.Statement (.and x y) :=
    statement_of_fields 50 (by decide) 0x53 (regField x) (0#11 ++ y.code) 0xE0#8 0xFFE0#16 rfl rfl rfl (regField_and
    x) (low5_and _) rfl

theorem EncodedWord.andi (c : CReg) (imm : Half) : EncodedWord.Statement (.andi c imm) :=
  statement_of_fields 51 (by decide) 0x54 (regField c) imm 0xE0#8 0#16 rfl rfl rfl (regField_and c) BitVec.and_zero rfl

theorem EncodedWord.xor (x y : CReg) : EncodedWord.Statement (.xor x y) :=
    statement_of_fields 52 (by decide) 0x55 (regField x) (0#11 ++ y.code) 0xE0#8 0xFFE0#16 rfl rfl rfl (regField_and
    x) (low5_and _) rfl

theorem EncodedWord.xori (c : CReg) (imm : Half) : EncodedWord.Statement (.xori c imm) :=
  statement_of_fields 53 (by decide) 0x56 (regField c) imm 0xE0#8 0#16 rfl rfl rfl (regField_and c) BitVec.and_zero rfl

theorem EncodedWord.jgez (c : CReg) (offset : BitVec 12) : EncodedWord.Statement (.jgez c offset) :=
    statement_of_fields 54 (by decide) 0x57 (regField c) (0#4 ++ offset) 0xE0#8 0xF000#16 rfl rfl rfl (regField_and
    c) (low12_and _) rfl

theorem EncodedWord.jneg (c : CReg) (offset : BitVec 12) : EncodedWord.Statement (.jneg c offset) :=
    statement_of_fields 55 (by decide) 0x58 (regField c) (0#4 ++ offset) 0xE0#8 0xF000#16 rfl rfl rfl (regField_and
    c) (low12_and _) rfl

theorem EncodedWord.jnz (c : CReg) (offset : BitVec 12) : EncodedWord.Statement (.jnz c offset) :=
    statement_of_fields 56 (by decide) 0x59 (regField c) (0#4 ++ offset) 0xE0#8 0xF000#16 rfl rfl rfl (regField_and
    c) (low12_and _) rfl

theorem EncodedWord.jz (c : CReg) (offset : BitVec 12) : EncodedWord.Statement (.jz c offset) :=
    statement_of_fields 57 (by decide) 0x5A (regField c) (0#4 ++ offset) 0xE0#8 0xF000#16 rfl rfl rfl (regField_and
    c) (low12_and _) rfl

theorem EncodedWord.jzc (c : CReg) (offset : BitVec 12) : EncodedWord.Statement (.jzc c offset) :=
    statement_of_fields 58 (by decide) 0x5B (regField c) (0#4 ++ offset) 0xE0#8 0xF000#16 rfl rfl rfl (regField_and
    c) (low12_and _) rfl

theorem EncodedWord.jmp (offset : BitVec 12) : EncodedWord.Statement (.jmp offset) :=
  statement_of_fields 59 (by decide) 0x5C 0 (0#4 ++ offset) 0xFF#8 0xF000#16 rfl rfl rfl rfl (low12_and _) rfl

theorem EncodedWord.apa (k : BitVec 8) (addr : DAddr) : EncodedWord.Statement (.apa k addr) :=
    statement_of_fields 60 (by decide) 0x60 k (addrField addr) 0#8 0x8000#16 rfl rfl rfl BitVec.and_zero
    (addrField_and addr) rfl

theorem EncodedWord.apb (k : BitVec 8) (addr : DAddr) : EncodedWord.Statement (.apb k addr) :=
    statement_of_fields 61 (by decide) 0x61 k (addrField addr) 0#8 0x8000#16 rfl rfl rfl BitVec.and_zero
    (addrField_and addr) rfl

theorem EncodedWord.apra (c : CReg) (addr : DAddr) : EncodedWord.Statement (.apra c addr) :=
    statement_of_fields 62 (by decide) 0x62 (regField c) (addrField addr) 0xE0#8 0x8000#16 rfl rfl rfl (regField_and
    c) (addrField_and addr) rfl

theorem EncodedWord.aprb (c : CReg) (addr : DAddr) : EncodedWord.Statement (.aprb c addr) :=
    statement_of_fields 63 (by decide) 0x63 (regField c) (addrField addr) 0xE0#8 0x8000#16 rfl rfl rfl (regField_and
    c) (addrField_and addr) rfl

theorem EncodedWord.aprra (x y : CReg) : EncodedWord.Statement (.aprra x y) :=
    statement_of_fields 64 (by decide) 0x64 (regField x) (0#11 ++ y.code) 0xE0#8 0xFFE0#16 rfl rfl rfl (regField_and
    x) (low5_and _) rfl

theorem EncodedWord.aprrb (x y : CReg) : EncodedWord.Statement (.aprrb x y) :=
    statement_of_fields 65 (by decide) 0x65 (regField x) (0#11 ++ y.code) 0xE0#8 0xFFE0#16 rfl rfl rfl (regField_and
    x) (low5_and _) rfl

theorem EncodedWord.apma (c : CReg) (m : Fin 128) : EncodedWord.Statement (.apma c m) :=
    statement_of_fields 66 (by decide) 0x66 (regField c) (0#9 ++ BitVec.ofFin (w := 7) m) 0xE0#8 0xFF80#16 rfl rfl
    rfl (regField_and c) (low7_and _) rfl

theorem EncodedWord.apmb (c : CReg) (m : Fin 128) : EncodedWord.Statement (.apmb c m) :=
    statement_of_fields 67 (by decide) 0x67 (regField c) (0#9 ++ BitVec.ofFin (w := 7) m) 0xE0#8 0xFF80#16 rfl rfl
    rfl (regField_and c) (low7_and _) rfl

theorem EncodedWord.chr (neg : Bool) (lfo : Fin 4) (w : Wave) (addr : DAddr) :
    EncodedWord.Statement (.chr neg lfo w addr) :=
    statement_of_fields 68 (by decide) 0x68 (0#4 ++ BitVec.ofBool neg ++ BitVec.ofFin (w := 2) lfo ++ w.bit)
    (addrField addr) 0xF0#8 0x8000#16 rfl rfl rfl (by cases w <;> revert neg lfo <;> decide) (addrField_and addr)
    rfl

theorem EncodedWord.pitch (xfade : Fin 4) (blklen : BlockLen) (ramp : Fin 2) (addr : DAddr) :
    EncodedWord.Statement (.pitch xfade blklen ramp addr) :=
    statement_of_fields 69 (by decide) 0x69 (0#2 ++ BitVec.ofFin (w := 2) xfade ++ blklen.bits ++ 0#1 ++
    BitVec.ofFin (w := 1) ramp) (addrField addr) 0xC2#8 0x8000#16 rfl rfl rfl (by cases blklen <;> revert xfade ramp
    <;> decide) (addrField_and addr) rfl

theorem EncodedWord.set (c : CReg) (userbit : Fin 2) (bitnum : Fin 32) :
    EncodedWord.Statement (.set c userbit bitnum) :=
    statement_of_fields 70 (by decide) 0x6A (regField c) (0#10 ++ BitVec.ofFin (w := 1) userbit ++ BitVec.ofFin (w
    := 5) bitnum) 0xE0#8 0xFFC0#16 rfl rfl rfl (regField_and c) (by revert userbit bitnum; decide) rfl

theorem EncodedWord.interp (c : CReg) (addr : DAddr) : EncodedWord.Statement (.interp c addr) :=
    statement_of_fields 71 (by decide) 0x6B (regField c) (addrField addr) 0xE0#8 0x8000#16 rfl rfl rfl (regField_and
    c) (addrField_and addr) rfl

end Sys2Proof.Laws
end

