-- ==== Sys2Proof/Tests/Slice0.lean ====
section
/-! SUPPORT. Tests, each on fixed values, and one witness for each statement that has hypotheses. Expected words are those of
spec/95_test_vectors.md section 1.1 and of the encoding lines of spec/30_encoding.md; expected results are the examples and
corner cases of the instruction's own rule, named in each comment. -/

namespace Sys2Proof.Tests

open Sys2Proof Sys2Proof.Machine

/-! ### Well-formedness: each check refuses a term (R138 step 5) -/

theorem test_wf_flags_destination : (Instr.wrdld .flags 0).wf = false := by decide
theorem test_wf_flags_destination_of_register_form : (Instr.cpyCc .flags (.r 0)).wf = false := by decide
theorem test_wf_write_only_sfr_read : (Instr.cpyCs (.r 0) (.out 0)).wf = false := by decide
theorem test_wf_read_only_sfr_written : (Instr.cpySc (.r 0) (.adc 0)).wf = false := by decide
theorem test_wf_flags_source : (Instr.cpyCc (.r 0) .flags).wf = true := by decide

/-! ### Decoding: one word for each constructor -/

theorem test_decode_math_1 : ∀ p ∈ [
    (0x00000000#32, Instr.abs (.r 0)), (0x02000000, .clracc64), (0x0400FFFF, .addi (.r 0) 0xFFFF),
    (0x06020003, .add (.r 2) (.r 3)), (0x08100000, .adds .acc32 (.r 0)), (0x0A004000, .addsi (.r 0) 0x4000),
    (0x0C000001, .sub (.r 0) (.r 1)), (0x0E000001, .subs (.r 0) (.r 1)), (0x10000008, .sl (.r 0) 8),
    (0x12000001, .slr (.r 0) (.r 1)), (0x14000008, .sls (.r 0) 8), (0x16000001, .slsr (.r 0) (.r 1)),
    (0x18000008, .sr (.r 0) 8), (0x1A000001, .srr (.r 0) (.r 1)), (0x1C000008, .sra (.r 0) 8),
    (0x1E000001, .srar (.r 0) (.r 1))], decode p.1 = .ok p.2 := by decide

theorem test_decode_math_2 : ∀ p ∈ [
    (0x20000001#32, Instr.macrr (.r 0) (.r 1)), (0x2200999A, .macri (.r 0) 0x999A), (0x24000064, .macrd (.r 0) 100),
    (0x2640006F, .macid 0x40 111), (0x28000010, .machrr (.r 0) .acc32), (0x2A00999A, .machri (.r 0) 0x999A),
    (0x2C000064, .machrd (.r 0) 100), (0x2E9A0064, .machid 0x9A 100), (0x30000001, .multrr (.r 0) (.r 1)),
    (0x32008CCD, .multri (.r 0) 0x8CCD), (0x34000000, .neg (.r 0)), (0x36000000, .log2 (.r 0)),
    (0x38000000, .exp2 (.r 0))], decode p.1 = .ok p.2 := by decide

theorem test_decode_copy_and_load : ∀ p ∈ [
    (0x60000011#32, Instr.cpyCc (.r 0) .flags), (0x62000040, .cpyCm (.r 0) 64), (0x64000000, .cpyCs (.r 0) (.adc 0)),
    (0x6401002E, .cpyCs (.r 1) .sampleCnt), (0x66110011, .cpyMc .flags 17), (0x68000004, .cpySc (.r 0) (.out 0)),
    (0x6A000001, .cpyCmx (.r 0) (.r 1)), (0x80000000, .rdacc64u (.r 0)), (0x82000000, .rdacc64l (.r 0)),
    (0x84000000, .ldacc64u (.r 0)), (0x86000000, .ldacc64l (.r 0)), (0x880000C8, .rddel (.r 0) 200),
    (0x8A0000C8, .wrdel (.r 0) 200), (0x8C000010, .rddelx (.r 0) .acc32), (0x8E000010, .wrdelx (.r 0) .acc32),
    (0x90000010, .rddirx (.r 0) .acc32), (0x92000010, .wrdirx (.r 0) .acc32), (0x94000000, .sat64 (.r 0)),
    (0x96004711, .wrdld (.r 0) 0x4711)], decode p.1 = .ok p.2 := by decide

theorem test_decode_logic_and_jumps : ∀ p ∈ [
    (0xA0000000#32, Instr.inv (.r 0)), (0xA2000001, .or (.r 0) (.r 1)), (0xA4004711, .ori (.r 0) 0x4711),
    (0xA6000001, .and (.r 0) (.r 1)), (0xA8110100, .andi .flags 0x0100), (0xAA000010, .xor (.r 0) .acc32),
    (0xAC00FFFF, .xori (.r 0) 0xFFFF), (0xAE000003, .jgez (.r 0) 3), (0xB0000002, .jneg (.r 0) 2),
    (0xB2000002, .jnz (.r 0) 2), (0xB4000002, .jz (.r 0) 2), (0xB6000002, .jzc (.r 0) 2),
    (0xB8000004, .jmp 4)], decode p.1 = .ok p.2 := by decide

theorem test_decode_extended : ∀ p ∈ [
    (0xC0CD00C8#32, Instr.apa 0xCD 200), (0xC2330000, .apb 0x33 0), (0xC40000C8, .apra (.r 0) 200),
    (0xC6000000, .aprb (.r 0) 0), (0xC8000001, .aprra (.r 0) (.r 1)), (0xCA000001, .aprrb (.r 0) (.r 1)),
    (0xCC00000A, .apma (.r 0) 10), (0xCE00000A, .apmb (.r 0) 10), (0xD0000100, .chr false 0 .sin 0x0100),
    (0xD00B0100, .chr true 1 .cos 0x0100), (0xD2080200, .pitch 0 .l2048 0 0x0200),
    (0xD23D7FFF, .pitch 3 .l4096 1 0x7FFF), (0xD400000F, .set (.r 0) 0 15), (0xD4020020, .set (.r 2) 1 0),
    (0xD60000C8, .interp (.r 0) 200)], decode p.1 = .ok p.2 := by decide

/-- The words above encode back. -/
theorem test_encode : encode (.chr true 1 .cos 0x0100) = 0xD00B0100 ∧ encode (.set (.r 0) 0 15) = 0xD400000F
    ∧ encode (.cpyMc .flags 17) = 0x66110011 ∧ encode (.machid 0x9A 100) = 0x2E9A0064 := by decide

/-- R140-R143, R45, R46: words that decode to nothing, each with its reason; bit 24 comes first. -/
theorem test_decode_rejects : ∀ p ∈ [
    (0xFFFFFFFF#32, Reject.reservedBits), (0xFEFFFFFF, .illegalOpcode), (0x01000000, .reservedBits),
    (0x00200000, .reservedBits), (0x00120000, .badCoreReg), (0x06000012, .badCoreReg), (0x601F0012, .badCoreReg),
    (0x60110000, .flagsAsDest), (0x60110012, .badCoreReg), (0x64000031, .badSfr), (0x64000004, .sfrNotReadable),
    (0x68000000, .sfrNotWritable), (0x64110004, .flagsAsDest), (0xD2020000, .reservedBits),
    (0xB8001000, .reservedBits)], decode p.1 = .error p.2 := by decide

theorem test_table_word : decodeTableWord 32 0x06020003 = some (.add (.r 2) (.r 3)) := by decide

/-! ### One instruction on a small state -/

/-- The reset state with R0, R1 and ACC32 set. -/
def st (r0 r1 acc : Word) : State := ((State.reset.setCore 0 r0).setCore 1 r1).setAcc32 acc

/-- The same with DCNT = 5 and the delay words `dm`. -/
def dl (r0 r1 acc : Word) (dm : List (Nat × Half)) : State := { st r0 r1 acc with dcnt := 5, delay := dm }

/-- The same with ACC64 set. -/
def ac (r0 r1 acc : Word) (a : Long) : State := (st r0 r1 acc).setAcc64 a

/-- The reset state at an address of a program of 20 instructions. -/
def jp (pc : Nat) (r0 acc : Word) : State := { st r0 0 acc with pc := pc, progLen := 20 }

/-- The outcome is a next state in which `f` has the value `v`. -/
def gives {α : Type} [DecidableEq α] (o : Out) (f : State → α) (v : α) : Bool :=
  match o with
  | .next t => f t == v
  | .fault _ => false
  | .refused _ => false

/-- The outcome is this fault. -/
def faults (o : Out) (f : Fault) : Bool :=
  match o with
  | .fault e => e == f
  | .next _ => false
  | .refused _ => false

-- R201, R203-R208: the examples and the corner cases
theorem test_abs : gives (exec (.abs (.r 0)) (st 0xFFFFFFFB 0 0)) State.acc32 5 := by decide
theorem test_addi_wraps : gives (exec (.addi (.r 0) 0x8000) (st 0 0 0)) State.acc32 0xFFFF8000 := by decide
theorem test_add_wraps : gives (exec (.add (.r 0) (.r 1)) (st 0x80000000 0x80000000 7)) State.acc32 0 := by decide
theorem test_adds_high : gives (exec (.adds (.r 0) (.r 1)) (st 0x40000000 0x40000000 0)) State.acc32 0x7FFFFFFF := by
  decide
theorem test_adds_low : gives (exec (.adds .acc32 (.r 0)) (st 0xFFFFFFFF 0 0x80000000)) State.acc32 0x80000000 := by
  decide
theorem test_addsi : gives (exec (.addsi (.r 0) 0x4000) (st 0x20000000 0 0)) State.acc32 0x60000000 := by decide
theorem test_sub_order : gives (exec (.sub (.r 0) (.r 1)) (st 0 1 0)) State.acc32 0xFFFFFFFF := by decide
theorem test_subs_high : gives (exec (.subs (.r 0) (.r 1)) (st 0 0x80000000 0)) State.acc32 0x7FFFFFFF := by decide
theorem test_clracc64 : gives (exec .clracc64 (ac 0 0 3 0x123456789ABCDEF0)) State.acc64 0 := by decide

-- R209-R216
theorem test_sl : gives (exec (.sl (.r 0) 1) (st 0x80000001 0 0)) State.acc32 2 := by decide
theorem test_slr_count : gives (exec (.slr (.r 0) (.r 1)) (st 0x12345678 0x28 0)) State.acc32 0x34567800 := by decide
theorem test_sls_high : gives (exec (.sls (.r 0) 8) (st 0x12345678 0 0)) State.acc32 0x7FFFFFFF := by decide
theorem test_sls_fits : gives (exec (.sls (.r 0) 31) (st 0xFFFFFFFF 0 0)) State.acc32 0x80000000 := by decide
theorem test_slsr_low : gives (exec (.slsr (.r 0) (.r 1)) (st 0xBFFFFFFF 0x21 0)) State.acc32 0x80000000 := by decide
theorem test_sr : gives (exec (.sr (.r 0) 31) (st 0x80000000 0 0)) State.acc32 1 := by decide
theorem test_srr_count : gives (exec (.srr (.r 0) (.r 1)) (st 0x12345678 0x20 0)) State.acc32 0x12345678 := by decide
theorem test_sra : gives (exec (.sra (.r 0) 8) (st 0x80000000 0 0)) State.acc32 0xFF800000 := by decide
theorem test_srar : gives (exec (.srar (.r 0) (.r 1)) (st 0x80000000 0x1F 0)) State.acc32 0xFFFFFFFF := by decide

-- R230-R248
theorem test_macrr : gives (exec (.macrr (.r 0) (.r 1)) (ac 0x40000000 0x40000000 0 0)) State.acc64 0x2000000000000000 := by
  decide
theorem test_macrr_presat : gives (exec (.macrr (.r 0) (.r 1)) (ac 0x80000000 0x80000000 0 0x8000000000000000)) State.acc64
    0xFFFFFFFFFFFFFFFF := by decide
theorem test_macri : gives (exec (.macri (.r 0) 0x999A) (ac 0x40000000 0 0 0)) State.acc64 0xCCCD000000000000 := by decide
theorem test_macrd : gives (exec (.macrd (.r 0) 100) ((dl 0x40000000 0 0 [(105, 0x2000)]).setAcc64 0)) State.acc64
    0x1000000000000000 := by decide
theorem test_macid : gives (exec (.macid 0x40 111) ((dl 0 0 0 [(116, 0x2000)]).setAcc64 0)) State.acc64
    0x1000000000000000 := by decide
theorem test_machrr : gives (exec (.machrr (.r 0) .acc32) (ac 0x40000000 0 0x40000000 0)) State.acc64
    0x0400000000000000 := by decide
theorem test_machrr_low_bits_lost : gives (exec (.machrr (.r 0) (.r 1)) (ac 0x40000000 7 0 9)) State.acc64 9 := by decide
theorem test_machri : gives (exec (.machri (.r 0) 0x999A) (ac 0x40000000 0 0 0)) State.acc64 0xF999800000000000 := by decide
theorem test_machrd : gives (exec (.machrd (.r 0) 100) ((dl 0x40000000 0 0 [(105, 0x2000)]).setAcc64 0)) State.acc64
    0x0200000000000000 := by decide
theorem test_machid : gives (exec (.machid 0x9A 100) ((dl 0 0 0 [(105, 0x4000)]).setAcc64 0)) State.acc64
    0xF9A0000000000000 := by decide
theorem test_multrr : gives (exec (.multrr (.r 0) (.r 1)) (st 0xFFFFFFFF 1 0)) State.acc32 0xFFFFFFFF := by decide
theorem test_multrr_saturates : gives (exec (.multrr (.r 0) (.r 0)) (st 0x80000000 0 0)) State.acc32 0x7FFFFFFF := by decide
theorem test_multri : gives (exec (.multri (.r 0) 0x8CCD) (st 0x40000000 0 0)) State.acc32 0xC6668000 := by decide
theorem test_neg_saturates : gives (exec (.neg (.r 0)) (st 0x80000000 0 0)) State.acc32 0x7FFFFFFF := by decide
theorem test_log2_completes : gives (exec (.log2 (.r 0)) (st 0 0 0)) State.pc 1 := by decide
theorem test_exp2_negative : gives (exec (.exp2 (.r 0)) (st 0xFC000000 0 0)) State.pc 1 := by decide
theorem test_exp2_zero : faults (exec (.exp2 (.r 0)) (st 0 0 0)) .exp2NonNegative := by decide

-- R261-R266
theorem test_cpy_cc : gives (exec (.cpyCc (.r 1) (.r 0)) (st 0x12345678 0 0)) (fun t => t.core[1]) 0x12345678 := by decide
theorem test_cpy_cm : gives (exec (.cpyCm (.r 0) 64) ((st 0 0 0).setMreg 64 0xCAFE0001)) (fun t => t.core[0])
    0xCAFE0001 := by decide
theorem test_cpy_cs : gives (exec (.cpyCs (.r 1) .sampleCnt) { st 0 0 0 with sampleCnt := 7 }) (fun t => t.core[1]) 7 := by
  decide
theorem test_cpy_cs_out : faults (exec (.cpyCs (.r 0) (.out 3)) (st 0 0 0)) .sfrNotReadable := by decide
theorem test_cpy_mc : gives (exec (.cpyMc (.r 0) 5) (st 0xABC 0 0)) (fun t => t.mreg[5]) 0xABC := by decide
theorem test_cpy_sc_out : gives (exec (.cpySc (.r 0) (.out 2)) (st 0xABC 0 0)) (fun t => (t.out[2], t.outWritten[2]))
    (0xABC, true) := by decide
theorem test_cpy_sc_pot_k : gives (exec (.cpySc (.r 0) (.potK 1)) (st 0xFFFFFFE3 0 0)) (fun t => t.ctl.potK[1]) 3 := by
  decide
theorem test_cpy_cmx_index : gives (exec (.cpyCmx (.r 0) (.r 1)) ((st 0 0x83 0).setMreg 3 0x11112222))
    (fun t => t.core[0]) 0x11112222 := by decide

-- R281-R292
theorem test_rdacc64u : gives (exec (.rdacc64u (.r 0)) (ac 0 0 0 0x123456789ABCDEF0)) (fun t => t.core[0]) 0x12345678 := by
  decide
theorem test_rdacc64l : gives (exec (.rdacc64l (.r 0)) (ac 0 0 0 0x123456789ABCDEF0)) (fun t => t.core[0]) 0x9ABCDEF0 := by
  decide
theorem test_ldacc64u : gives (exec (.ldacc64u (.r 0)) (ac 0xAAAA5555 0 0 0x123456789ABCDEF0)) State.acc64
    0xAAAA55559ABCDEF0 := by decide
theorem test_ldacc64l : gives (exec (.ldacc64l (.r 0)) (ac 0xAAAA5555 0 0 0x123456789ABCDEF0)) State.acc64
    0x12345678AAAA5555 := by decide
theorem test_rddel : gives (exec (.rddel (.r 0) 200) (dl 0 0 0 [(205, 0x8001)])) (fun t => t.core[0]) 0x80010000 := by decide
theorem test_wrdel : gives (exec (.wrdel (.r 0) 200) (dl 0x1234FFFF 0 0 [])) State.delay [(205, 0x1234)] := by decide
theorem test_rddelx : gives (exec (.rddelx (.r 0) .acc32) (dl 0 0 0xFFFF80C8 [(205, 0x7FFF)])) (fun t => t.core[0])
    0x7FFF0000 := by decide
theorem test_wrdelx : gives (exec (.wrdelx (.r 0) .acc32) (dl 0xC8 0 0xABCD1234 [(205, 1)])) State.delay
    [(205, 0xABCD)] := by decide
theorem test_rddirx : gives (exec (.rddirx (.r 0) .acc32) (dl 0 0 0xC8 [(200, 1)])) (fun t => t.core[0]) 0x00010000 := by
  decide
theorem test_wrdirx : gives (exec (.wrdirx (.r 0) .acc32) (dl 0xC8 0 0xABCD1234 [])) State.delay [(200, 0xABCD)] := by decide
theorem test_wrdel_zero_removes : gives (exec (.wrdel (.r 0) 200) (dl 0x0000FFFF 0 0 [(205, 1)])) State.delay [] := by decide
theorem test_sat64 : gives (exec (.sat64 (.r 0)) (ac 0 0 0 0x0400000000000000)) (fun t => t.core[0]) 0x20000000 := by decide
theorem test_sat64_low : gives (exec (.sat64 (.r 0)) (ac 0 0 0 0xEFFFFFFF00000000)) (fun t => t.core[0]) 0x80000000 := by
  decide
theorem test_wrdld : gives (exec (.wrdld (.r 0) 0x4711) (st 5 0 0)) (fun t => t.core[0]) 0x47110000 := by decide

-- R311-R317
theorem test_inv : gives (exec (.inv (.r 0)) (st 0x12345678 0 0)) State.acc32 0xEDCBA987 := by decide
theorem test_or : gives (exec (.or (.r 0) (.r 1)) (st 0x12340000 0x5678 0)) State.acc32 0x12345678 := by decide
theorem test_ori_leaves_register : gives (exec (.ori (.r 0) 0x4711) (st 0x47110000 0 0)) (fun t => (t.acc32, t.core[0]))
    (0x47114711, 0x47110000) := by decide
theorem test_and : gives (exec (.and (.r 0) (.r 1)) (st 0xFFFF0000 0x12345678 0)) State.acc32 0x12340000 := by decide
theorem test_andi_clears_upper : gives (exec (.andi (.r 0) 0x0100) (st 0xFFFFFFFF 0 0)) State.acc32 0x0100 := by decide
theorem test_xor : gives (exec (.xor (.r 0) .acc32) (st 0xFFFFFFFF 0 0x12345678)) State.acc32 0xEDCBA987 := by decide
theorem test_xori : gives (exec (.xori (.r 0) 0xFFFF) (st 0x12345678 0 0)) State.acc32 0x1234A987 := by decide

-- R331-R336, R330 d
theorem test_jgez_zero_taken : gives (exec (.jgez (.r 0) 3) (jp 10 0 0)) State.pc 13 := by decide
theorem test_jgez_not_taken : gives (exec (.jgez (.r 0) 3) (jp 10 0xFFFFFFFF 0)) State.pc 11 := by decide
theorem test_jneg_taken : gives (exec (.jneg (.r 0) 2) (jp 10 0x80000000 0)) State.pc 12 := by decide
theorem test_jnz_not_taken : gives (exec (.jnz (.r 0) 2) (jp 10 0 0)) State.pc 11 := by decide
theorem test_jz_taken : gives (exec (.jz (.r 0) 2) (jp 10 0 0)) State.pc 12 := by decide
theorem test_jzc_taken : gives (exec (.jzc (.r 0) 2) (jp 10 5 0xFFFFFFFB)) State.pc 12 := by decide
theorem test_jzc_zero_is_positive : gives (exec (.jzc (.r 0) 2) (jp 10 0 1)) State.pc 11 := by decide
theorem test_jmp_last : gives (exec (.jmp 9) (jp 10 0 0)) State.pc 19 := by decide
theorem test_jmp_past_end : faults (exec (.jmp 10) (jp 10 0 0)) .jumpOutOfRange := by decide
theorem test_jump_to_itself_not_taken : faults (exec (.jnz (.r 0) 0) (jp 10 0 0)) .jumpOutOfRange := by decide

-- R351-R359: the chain of examples of each pair
theorem test_apa : gives (exec (.apa 0xC0 200) (dl 0 0 0x20000000 [(205, 0x1000)])) (fun t => (t.acc32, t.core[15]))
    (0x18000000, 0x10000000) := by decide
theorem test_apb : gives (exec (.apb 0x40 0) ((dl 0 0 0x18000000 []).setCore 15 0x10000000)) (fun t => (t.acc32, t.delay))
    (0x1C000000, [(5, 0x1800)]) := by decide
theorem test_apra : gives (exec (.apra (.r 0) 200) (dl 0x40000000 0 0x20000000 [(205, 0x1000)]))
    (fun t => (t.acc32, t.core[15])) (0x18000000, 0x10000000) := by decide
theorem test_aprb : gives (exec (.aprb (.r 0) 0) ((dl 0x40000000 0 0x18000000 []).setCore 15 0x10000000))
    (fun t => (t.acc32, t.delay)) (0x1C000000, [(5, 0x1800)]) := by decide
theorem test_aprra : gives (exec (.aprra (.r 0) (.r 1)) (dl 0x40000000 0xC8 0x20000000 [(205, 0x1000)]))
    (fun t => (t.acc32, t.core[15])) (0x18000000, 0x10000000) := by decide
theorem test_aprrb : gives (exec (.aprrb (.r 0) (.r 1)) ((dl 0x40000000 0 0x18000000 []).setCore 15 0x10000000))
    (fun t => (t.acc32, t.delay)) (0x1C000000, [(5, 0x1800)]) := by decide
theorem test_apma : gives (exec (.apma (.r 0) 10) ((st 0x40000000 0 0x20000000).setMreg 10 0x10000001))
    (fun t => (t.acc32, t.core[15])) (0x17FFFFFF, 0x10000001) := by decide
theorem test_apmb : gives (exec (.apmb (.r 0) 10) ((st 0x40000000 0 0x17FFFFFF).setCore 15 0x10000001))
    (fun t => (t.acc32, t.mreg[10])) (0x1C000000, 0x17FFFFFF) := by decide

-- R363-R366
theorem test_chr_completes : gives (exec (.chr false 0 .sin 0x0100) ((st 0 0 0).setCore 15 0x7FFFFFFF)) State.pc 1 := by decide
theorem test_chr_bad : faults (exec (.chr false 0 .sin 0x0100) ((st 0 0 0).setCore 15 0x80000000)) .chrParamBad := by decide
theorem test_pitch_completes : gives (exec (.pitch 0 .l2048 0 0x0200) (st 0 0 0)) State.pc 1 := by decide
theorem test_set : gives (exec (.set (.r 0) 0 15) (st 0xFFFF7FFF 0 0)) State.user #v[false, true] := by decide
theorem test_interp : gives (exec (.interp (.r 0) 200) (dl 0x00024000 0 0 [(207, 0x4000), (208, 0x8000)])) State.acc32
    0x10000000 := by decide
theorem test_interp_wraps : gives (exec (.interp (.r 0) 0) (dl 0x7FFA8000 0 0 [(0, 0x3000), (32767, 0x1000)])) State.acc32
    0x20000000 := by decide

/-! ### The step -/

theorem test_step_runs_word : gives (step ((st 0 0 7).withFetchWord 32 0xAA100010)) State.acc32 0 := by decide
theorem test_step_without_program : step State.reset = .refused .noProgram := rfl
theorem test_reset_memories : Memory.wf 32768 State.reset.delay = true ∧ Memory.wf 1024 State.reset.iram = true := by decide

/-- A one-instruction program with a header. -/
def prog : Program :=
  { text := [0x02000000], header := { creg := [(3, 0x11)], mreg := [(127, 0x22)], sreg := [(.potK 5, 0x3F), (.oflRld, 0x12345)] } }

/-- A header value of TAPTEMPO is there before the first instruction (R56). -/
theorem test_load_taptempo : gives (step (State.reset.select { prog with header := { prog.header with sreg := [(.tapTempo, 5)] } }))
    (·.tapTempo) 5 := by decide

/-- A selected program is loaded, runs its instruction, and the period's tick follows. -/
theorem test_load : gives (step (State.reset.select prog)) (fun t => (t.progLen, t.iram, t.acc32, t.acc64))
    (1, [(0, 0x02000000)], 0, 0xDEADBEEFDEADBEEF) := by decide
theorem test_period : gives (Host.Core.run Sys2Proof.core 3 (State.reset.select prog)) (fun t => (t.acc64, t.pc, t.sampleCnt))
    (0, 0, 1) := by decide

/-! ### The assembler (95_test_vectors.md sections 1.2 and 1.3) -/

/-- Directives of section 1.3, with the `.rn` its aliased lines need. -/
def directives : List Directive :=
  [.equ "fs" (.num 48000), .rn "hp_filt" "R0", .rn "lfo0freq" "LFO0_F", .mem "delay0" (.num 1000) 0,
   .mem "delay1" (.div (.name "fs") (.num 4)) 1001, .creg true "r3" (.num (3141592654 / 1000000000)),
   .creg false "hp_filt" (.num (1 / 2)), .mreg false "mr2" (.num (-1)), .sreg false "lfo0freq" (.num 10)]

theorem test_header_of_directives : (runDirectives directives AsmState.empty).map (·.header) =
    some { creg := [(0, 0x40000000), (3, 3)], mreg := [(2, 0x80000000)], sreg := [(.lfoF 0, 10)] } := by decide +kernel

theorem test_block_symbols : (runDirectives directives AsmState.empty).map (fun s => s.syms.lookup "delay1!") =
    some (some 12000) := by decide +kernel

/-- 1.0 is no S.31 value (R159); a second name for a register (R157); a block over an occupied address (R158). -/
theorem test_directive_errors :
    ([.creg false "r1" (.num 1), .rn "again" "LFO0_F", .mem "delay2" (.num 1) 1000] : List Directive).all
      (fun d => (runDirectives (directives ++ [d]) AsmState.empty).isNone) = true := by decide +kernel

/-- An alias, a label, a delay symbol, an MREG number and the upper half of a constant assemble to their fields. -/
theorem test_statements_with_names :
    (assembleProgram 0 [("Vader", 2)] directives
      [("jgez", [.word "hp_filt", .word "Vader"]), ("rddel", [.word "acc32", .word "delay0#"]),
       ("CPY_CM", [.word "R0", .value (.num 64)]), ("wrdld", [.word "r0", .value (.upper (.num 0x12345678))])]).map (·.text)
      = some [0xAE000002, 0x881003E8, 0x62000040, 0x96001234] := by decide +kernel

theorem test_negative_power : powValue 2 (-3) = some (1 / 8) := by decide +kernel

/-! ### Witnesses: for each statement with hypotheses, states and operands that meet them, clause by clause -/

theorem witness_OpcodeRowUnique : decode 0x06020003 = .ok (.add (.r 2) (.r 3)) := by decide

/-- Both edges of each of the five ranges of unassigned values, bit 24 clear. -/
theorem witness_UnassignedOpcodes : ∀ f ∈ [0x1D, 0x2F, 0x36, 0x3F, 0x4C, 0x4F, 0x5D, 0x5F, 0x6C, 0x7F],
    (wordOf f 0 0).getLsbD 24 = false ∧ decode (wordOf f 0 0) = .error .illegalOpcode := by decide

/-- The neighbours of those edges are assigned. -/
theorem witness_UnassignedOpcodes_neighbours : ∀ f ∈ [0x1C, 0x30, 0x35, 0x40, 0x4B, 0x50, 0x5C, 0x60, 0x6B],
    (wordOf f 0 0).getLsbD 24 = false ∧ decode (wordOf f 0 0) ≠ .error .illegalOpcode := by decide

/-- The lowest and the highest bad code, in the R field and in the M field. -/
theorem witness_BadCoreRegRejected :
    (∃ r ∈ opcodeRows, r.accepts 0x06120000 = true ∧ r.mask.extractLsb 23 16 = 0xE0#8
      ∧ 18 ≤ ((0x06120000 : Word).extractLsb 20 16).toNat)
    ∧ (∃ r ∈ opcodeRows, r.accepts 0x061F0000 = true ∧ r.mask.extractLsb 23 16 = 0xE0#8
      ∧ 18 ≤ ((0x061F0000 : Word).extractLsb 20 16).toNat)
    ∧ (∃ r ∈ opcodeRows, r.accepts 0x06000012 = true ∧ r.mask = 0xFFE0FFE0#32
      ∧ r.mnemonic ∉ ["SL", "SLS", "SR", "SRA"] ∧ 18 ≤ ((0x06000012 : Word).extractLsb 4 0).toNat)
    ∧ ∃ r ∈ opcodeRows, r.accepts 0x0600001F = true ∧ r.mask = 0xFFE0FFE0#32
      ∧ r.mnemonic ∉ ["SL", "SLS", "SR", "SRA"] ∧ 18 ≤ ((0x0600001F : Word).extractLsb 4 0).toNat := by decide

theorem witness_FlagsNeverDestination : (Instr.wrdld .flags 0x4711).dest = some .flags := by decide

/-- A state whose pc is inside the program, at a word that decodes, and one at a word that does not. -/
theorem witness_StepRunsDecoded : (State.reset.withFetchWord 32 0x02000000).pc < (State.reset.withFetchWord 32 0x02000000).progLen
    ∧ decode (Memory.read (State.reset.withFetchWord 32 0x02000000).iram (State.reset.withFetchWord 32 0x02000000).pc)
      = .ok .clracc64 := by decide

theorem witness_StepRejectsUndecodable :
    (State.reset.withFetchWord 32 0xFEFFFFFF).pc < (State.reset.withFetchWord 32 0xFEFFFFFF).progLen
    ∧ decode (Memory.read (State.reset.withFetchWord 32 0xFEFFFFFF).iram (State.reset.withFetchWord 32 0xFEFFFFFF).pc)
      = .error .illegalOpcode := by decide

/-- The end of an iteration of a one-instruction program, with DCNT at 0 and OUT1 written. -/
def ended : State := { (st 1 2 3).setOut 1 9 with pc := 1, progLen := 1, dcnt := 0, sampleCnt := 0xFFFFFFFF }

theorem witness_SampleTick : ended.progLen ≤ ended.pc ∧ ended.progLen ≠ 0 ∧ ended.pending = none
    ∧ ended.outWritten[1] = true ∧ ended.outWritten[0] = false := by decide

/-- The three clauses: a program that fits, an empty one, and none at all. -/
theorem witness_BoundaryLoads : (ended.select prog).progLen ≤ (ended.select prog).pc
    ∧ (ended.select prog).pending = some prog ∧ prog.wf = true
    ∧ (ended.select { prog with text := [] }).pending = some { prog with text := [] }
    ∧ ({ prog with text := [] } : Program).wf = false
    ∧ State.reset.progLen ≤ State.reset.pc ∧ State.reset.pending = none ∧ State.reset.progLen = 0 := by decide

theorem witness_ProgramChange : prog.wf = true ∧ 0 < prog.text.length ∧ (3, 0x11) ∈ prog.header.creg
    ∧ (127, 0x22) ∈ prog.header.mreg ∧ (.potK 5, 0x3F) ∈ prog.header.sreg
    ∧ (∀ e ∈ prog.header.creg, e.1 ≠ 15) ∧ ∀ e ∈ prog.header.mreg, e.1 ≠ 0 :=
  ⟨by decide, by decide, by decide, by decide, by decide, by simp [prog], by simp [prog]⟩

/-- States that meet the invariant and have a next step: an instruction, a tick, a program change. -/
theorem witness_StepKeepsInv :
    (State.Inv ended ∧ ∃ t, step ended = .next t)
    ∧ (State.Inv (ended.select prog) ∧ ∃ t, step (ended.select prog) = .next t)
    ∧ State.Inv { ended with pc := 0, iram := [(0, 0x02000000)] }
      ∧ ∃ t, step { ended with pc := 0, iram := [(0, 0x02000000)] } = .next t :=
  ⟨⟨⟨by decide, by decide, by decide, by decide⟩, _, rfl⟩, ⟨⟨by decide, by decide, by decide, by decide⟩, _, rfl⟩,
    ⟨by decide, by decide, by decide, by decide⟩, _, rfl⟩

theorem witness_FrameOfEveryInstruction : ∃ t, exec (.wrdel (.r 0) 200) (dl 0x1234FFFF 0 0 []) = .next t := ⟨_, rfl⟩

/-- Each clause of OnlyTheseWrite has an instruction that changes its piece of state. -/
theorem witness_OnlyTheseWrite :
    gives (exec .clracc64 (ac 0 0 0 1)) (fun t => decide (t.acc64 ≠ 1)) true
    ∧ gives (exec (.cpyMc (.r 0) 127) ((st 1 0 0).setMreg 127 0)) (fun t => decide (t.mreg[127] ≠ 0)) true
    ∧ gives (exec (.wrdirx (.r 0) .acc32) (dl 0x7FFF 0 0xABCD1234 [])) (fun t => decide (t.delayAt 32767 ≠ 0)) true
    ∧ gives (exec (.set (.r 0) 1 0) (st 0 0 0)) (fun t => decide (t.user[1] ≠ State.reset.user[1])) true
    ∧ gives (exec (.cpySc (.r 0) .maxTempo) (st 1 0 0)) (fun t => decide (t.sfrRead .maxTempo ≠ State.reset.sfrRead .maxTempo))
        true
    ∧ gives (exec (.cpySc (.r 0) (.out 3)) (st 1 0 0)) (fun t => decide (t.out[3] ≠ State.reset.out[3])) true
    ∧ gives (exec (.wrdld (.r 15) 1) (st 0 0 0)) (fun t => decide (t.core[15] ≠ State.reset.core[15])) true
    ∧ gives (exec (.apma (.r 0) 0) (st 0 0 0)) (fun t => decide (t.core[15] ≠ 0)) true := by decide

theorem witness_WhenAnInstructionStops : WellFormed (.add (.r 0) .flags) ∧ WellFormed (.jmp 0) ∧ WellFormed (.exp2 .acc32)
    ∧ WellFormed (.chr false 0 .sin 0) := by decide

theorem witness_PcIncreases : (∃ t, exec (.jmp 9) (jp 10 0 0) = .next t) ∧ (jp 10 0 0).pc < (jp 10 0 0).progLen
    ∧ ∃ t, exec .clracc64 (jp 19 0 0) = .next t := ⟨⟨_, rfl⟩, by decide, _, rfl⟩

/-- Both ends of an iteration: its first instruction and PROG_LEN. -/
theorem witness_IterationEnds : (jp 0 0 0).pc ≤ (jp 0 0 0).progLen ∧ ended.pc ≤ ended.progLen := by decide

theorem witness_FlagsReachOnlyTheirReaders : readsFlags (.add (.r 0) .acc32) = false ∧ readsFlags (.cpyCs (.r 0) (.adc 0)) = false := by
  decide

/-- ABS: a non-negative operand, the largest negative one, and 0x80000000. -/
theorem witness_AbsResult : 0 ≤ ((st 0 0 0).reg (.r 0)).toInt ∧ ((st 0x80000001 0 0).reg (.r 0)).toInt < 0
    ∧ (st 0x80000001 0 0).reg (.r 0) ≠ 0x80000000#32 ∧ (st 0x80000000 0 0).reg (.r 0) = 0x80000000#32 := by decide

theorem witness_MultiplyResult : ¬ ((st 0x80000000 0x7FFFFFFF 0).reg (.r 0) = 0x80000000#32
      ∧ (st 0x80000000 0x7FFFFFFF 0).reg (.r 1) = 0x80000000#32)
    ∧ (st 0x80000000 0x80000000 0).reg (.r 0) = 0x80000000#32 ∧ (st 0x80000000 0x80000000 0).reg (.r 1) = 0x80000000#32
    ∧ (0x8000 : Half) = 0x8000#16 ∧ (0x7FFF : Half) ≠ 0x8000#16 := by decide

/-- EXP2: the two operands nearest to zero on either side. -/
theorem witness_LogarithmAndExponential : ((st 0xFFFFFFFF 0 0).reg (.r 0)).toInt < 0 ∧ 0 ≤ ((st 0 0 0).reg (.r 0)).toInt := by
  decide

/-- A destination that is not FLAGS: CopyToCore, CopyFromSfr, AccumulatorHalves, Sat64Result, WrdldResult, DelayReads. -/
theorem witness_FlagsRead : CReg.acc32 ≠ .flags ∧ CReg.r 0 ≠ .flags := by decide
theorem witness_CopyToCore : CReg.acc32 ≠ .flags ∧ CReg.r 15 ≠ .flags := by decide
theorem witness_CopyFromSfr : CReg.acc32 ≠ .flags ∧ (Sfr.adc 0).readable = true ∧ Sfr.bootStat.readable = true
    ∧ (Sfr.out 0).readable = false ∧ (Sfr.out 3).readable = false := by decide
theorem witness_CopyToSfr : (Sfr.out 0).writable = true ∧ Sfr.maxTempo.writable = true ∧ (Sfr.adc 0).writable = false
    ∧ Sfr.bootStat.writable = false := by decide
theorem witness_AccumulatorHalves : CReg.r 0 ≠ .flags := by decide
theorem witness_Sat64Result : CReg.r 0 ≠ .flags := by decide
theorem witness_WrdldResult : CReg.r 0 ≠ .flags := by decide
theorem witness_DelayReads : CReg.r 0 ≠ .flags := by decide
theorem witness_DelayRoundTrip : CReg.r 1 ≠ .flags ∧ ∃ t, exec (.wrdel (.r 0) 200) (dl 0x1234FFFF 0 0 []) = .next t :=
  ⟨by decide, _, rfl⟩
theorem witness_CircularBuffer : CReg.r 1 ≠ .flags ∧ ∃ t, exec (.wrdel (.r 0) 0x7FFF) (dl 0x1234FFFF 0 0 []) = .next t :=
  ⟨by decide, _, rfl⟩
theorem witness_ConstantIdiom : ∃ t, exec (.wrdld (.r 3) 0x1234) (st 0 0 0) = .next t := ⟨_, rfl⟩

/-- A well-formed jump to the last instruction; each condition is met and is not met by some operand. -/
theorem witness_JumpResults : (jp 10 0 0).jumpOk 9 ∧ (jp 18 0 0).jumpOk 1
    ∧ 0 ≤ ((jp 10 0 0).reg (.r 0)).toInt ∧ ((jp 10 0xFFFFFFFF 0).reg (.r 0)).toInt < 0
    ∧ ((jp 10 0 0).reg (.r 0)).toNat = 0 ∧ ((jp 10 1 0).reg (.r 0)).toNat ≠ 0
    ∧ ¬ (((jp 10 0xFFFFFFFF 0).reg (.r 0)).toInt < 0 ↔ (jp 10 0xFFFFFFFF 0).acc32.toInt < 0)
    ∧ (((jp 10 1 0).reg (.r 0)).toInt < 0 ↔ (jp 10 1 0).acc32.toInt < 0) := by
  unfold State.jumpOk; decide

/-- A jump to itself and a jump one past the last instruction. -/
theorem witness_JumpOutOfRange : jumpOffset (.jz (.r 0) 0) = some 0 ∧ ¬ (jp 10 0 0).jumpOk 0
    ∧ jumpOffset (.jmp 10) = some 10 ∧ ¬ (jp 10 0 0).jumpOk 10 := by
  unfold State.jumpOk; decide

theorem witness_LabelReached : labelOffset (jumpBias (jp 10 0 0).par) (jp 10 0 0).pc 19 = some 9 ∧ (jp 10 0 0).pc < 19
    ∧ 19 < (jp 10 0 0).progLen := by decide

/-- A base above 0 with an integer exponent and with a fractional one. -/
theorem witness_AssemblerPower : (0 : Rat) < 2 ∧ ((-3 : Int) : Rat).den = 1 ∧ (mkRat 1 2).den ≠ 1 := by decide

/-- Parameters with the defaults of the all-pass and interpolation arithmetic, and without them. -/
theorem witness_AllPassArithmetic : Config.specDefaults.apmacDefault = true ∧ Config.specDefaults.apnegDefault = true
    ∧ ({ Config.specDefaults with apmacDefault := false } : Params).apmacDefault = false
    ∧ ({ Config.specDefaults with apnegDefault := false } : Params).apnegDefault = false := by decide

/-- CHR: the largest admitted parameter and the smallest that is refused. -/
theorem witness_ChorusAndPitch : (((st 0 0 0).setCore 15 0x7FFFFFFF).reg .param0).toNat < 2147483648
    ∧ 2147483648 ≤ (((st 0 0 0).setCore 15 0x80000000).reg .param0).toNat := by decide

theorem witness_InterpResult : (st 0 0 0).par.interpDefault = true
    ∧ ({ st 0 0 0 with par := { Config.specDefaults with interpDefault := false } } : State).par.interpDefault = false := by
  decide

end Sys2Proof.Tests
end

section
/-! PROOFS of the family 10_state: the decoder yields well-formed instructions only (O6). -/

namespace Sys2Proof.Machine

/-! ### The decoder answers well-formed instructions only (R138 step 5) -/

/-- Every instruction that a decoding answers is well formed. -/
def YieldsWf (r : Except Reject Instr) : Prop := ∀ i, r = .ok i → WellFormed i

theorem yieldsWf_error (e : Reject) : YieldsWf (.error e) := fun _ h => nomatch h

theorem yieldsWf_ok {i : Instr} (h : WellFormed i) : YieldsWf (.ok i) := fun _ e => Except.ok.inj e ▸ h

theorem yieldsWf_ite {c : Prop} [Decidable c] {a b : Except Reject Instr} (ha : YieldsWf a) (hb : YieldsWf b) :
    YieldsWf (if c then a else b) := by
  split
  · exact ha
  · exact hb

theorem yieldsWf_map {α : Type} {r : Except Reject α} {f : α → Instr} (h : ∀ a, r = .ok a → WellFormed (f a)) :
    YieldsWf (r.map f) := by
  cases r with
  | error e => exact yieldsWf_error e
  | ok a => exact yieldsWf_ok (h a rfl)

theorem yieldsWf_bind {α : Type} {r : Except Reject α} {f : α → Except Reject Instr}
    (h : ∀ a, r = .ok a → YieldsWf (f a)) : YieldsWf (r.bind f) := by
  cases r with
  | error e => exact yieldsWf_error e
  | ok a => exact h a rfl

theorem except_bind_ok {α β : Type} {r : Except Reject α} {f : α → Except Reject β} {b : β} (h : r.bind f = .ok b) :
    ∃ a, r = .ok a ∧ f a = .ok b := by
  cases r with
  | error e => cases h
  | ok a => exact ⟨a, rfl, h⟩

/-- The check of a CREGNA position lets no FLAGS through. -/
theorem notFlags_ok {c d : CReg} (h : notFlags c = .ok d) : d ≠ .flags := by
  unfold notFlags at h
  split at h
  · cases h
  · next hc => exact Except.ok.inj h ▸ hc

theorem bind_notFlags_ok {r : Except Reject CReg} {d : CReg} (h : r.bind notFlags = .ok d) : d ≠ .flags := by
  obtain ⟨_, _, hc⟩ := except_bind_ok h
  exact notFlags_ok hc

theorem bind_sfrForRead_ok {r : Except Reject Sfr} {n : Sfr} (h : r.bind sfrForRead = .ok n) : n.readable = true := by
  obtain ⟨m, _, hm⟩ := except_bind_ok h
  unfold sfrForRead at hm
  split at hm
  · next hr => exact Except.ok.inj hm ▸ hr
  · cases hm

theorem bind_sfrForWrite_ok {r : Except Reject Sfr} {n : Sfr} (h : r.bind sfrForWrite = .ok n) : n.writable = true := by
  obtain ⟨m, _, hm⟩ := except_bind_ok h
  unfold sfrForWrite at hm
  split at hm
  · next hw => exact Except.ok.inj hm ▸ hw
  · cases hm

theorem wellFormed_iff {i : Instr} : WellFormed i ↔ i.dest ≠ some .flags ∧ i.sfrOk = true := by
  simp [WellFormed, Instr.wf]

/-! One lemma for each format (R124). -/

section Formats
variable {w : Word}

theorem rowF0_yieldsWf {i : Instr} (h : WellFormed i) : YieldsWf (rowF0 i w) :=
  yieldsWf_ite (yieldsWf_ok h) (yieldsWf_error _)

theorem rowFC_yieldsWf {mk : CReg → Instr} (h : ∀ c, WellFormed (mk c)) : YieldsWf (rowFC mk w) :=
  yieldsWf_ite (yieldsWf_map fun c _ => h c) (yieldsWf_error _)

theorem rowFCD_yieldsWf {mk : CReg → Instr} (h : ∀ c, c ≠ .flags → WellFormed (mk c)) : YieldsWf (rowFCD mk w) :=
  yieldsWf_ite (yieldsWf_map fun c hc => h c (bind_notFlags_ok hc)) (yieldsWf_error _)

theorem rowFCC_yieldsWf {mk : CReg → CReg → Instr} (h : ∀ x y, WellFormed (mk x y)) : YieldsWf (rowFCC mk w) :=
  yieldsWf_ite (yieldsWf_bind fun x _ => yieldsWf_map fun y _ => h x y) (yieldsWf_error _)

theorem rowFCCD_yieldsWf {mk : CReg → CReg → Instr} (h : ∀ x y, x ≠ .flags → WellFormed (mk x y)) :
    YieldsWf (rowFCCD mk w) :=
  yieldsWf_ite (yieldsWf_bind fun _ _ => yieldsWf_bind fun y _ => yieldsWf_map fun x hx => h x y (notFlags_ok hx))
    (yieldsWf_error _)

theorem rowFCI5_yieldsWf {mk : CReg → BitVec 5 → Instr} (h : ∀ c n, WellFormed (mk c n)) : YieldsWf (rowFCI5 mk w) :=
  yieldsWf_ite (yieldsWf_map fun c _ => h c _) (yieldsWf_error _)

theorem rowFCI16_yieldsWf {mk : CReg → Half → Instr} (h : ∀ c v, WellFormed (mk c v)) : YieldsWf (rowFCI16 mk w) :=
  yieldsWf_ite (yieldsWf_map fun c _ => h c _) (yieldsWf_error _)

theorem rowFCI16D_yieldsWf {mk : CReg → Half → Instr} (h : ∀ c v, c ≠ .flags → WellFormed (mk c v)) :
    YieldsWf (rowFCI16D mk w) :=
  yieldsWf_ite (yieldsWf_map fun c hc => h c _ (bind_notFlags_ok hc)) (yieldsWf_error _)

theorem rowFCA_yieldsWf {mk : CReg → DAddr → Instr} (h : ∀ c a, WellFormed (mk c a)) : YieldsWf (rowFCA mk w) :=
  yieldsWf_ite (yieldsWf_map fun c _ => h c _) (yieldsWf_error _)

theorem rowFCAD_yieldsWf {mk : CReg → DAddr → Instr} (h : ∀ c a, c ≠ .flags → WellFormed (mk c a)) :
    YieldsWf (rowFCAD mk w) :=
  yieldsWf_ite (yieldsWf_map fun c hc => h c _ (bind_notFlags_ok hc)) (yieldsWf_error _)

theorem rowFKA_yieldsWf {mk : BitVec 8 → DAddr → Instr} (h : ∀ k a, WellFormed (mk k a)) : YieldsWf (rowFKA mk w) :=
  yieldsWf_ite (yieldsWf_ok (h _ _)) (yieldsWf_error _)

theorem rowFCM_yieldsWf {mk : CReg → Fin 128 → Instr} (h : ∀ c m, WellFormed (mk c m)) : YieldsWf (rowFCM mk w) :=
  yieldsWf_ite (yieldsWf_map fun c _ => h c _) (yieldsWf_error _)

theorem rowFCMD_yieldsWf {mk : CReg → Fin 128 → Instr} (h : ∀ c m, c ≠ .flags → WellFormed (mk c m)) :
    YieldsWf (rowFCMD mk w) :=
  yieldsWf_ite (yieldsWf_map fun c hc => h c _ (bind_notFlags_ok hc)) (yieldsWf_error _)

theorem rowFCSRead_yieldsWf : YieldsWf (rowFCSRead w) :=
  yieldsWf_ite
    (yieldsWf_bind fun _ hc => yieldsWf_map fun _ hn =>
      wellFormed_iff.mpr ⟨fun h => bind_notFlags_ok hc (Option.some.inj h), bind_sfrForRead_ok hn⟩)
    (yieldsWf_error _)

theorem rowFCSWrite_yieldsWf : YieldsWf (rowFCSWrite w) :=
  yieldsWf_ite (yieldsWf_bind fun _ _ => yieldsWf_map fun _ hn => bind_sfrForWrite_ok hn) (yieldsWf_error _)

theorem rowFCO_yieldsWf {mk : CReg → BitVec 12 → Instr} (h : ∀ c o, WellFormed (mk c o)) : YieldsWf (rowFCO mk w) :=
  yieldsWf_ite (yieldsWf_map fun c _ => h c _) (yieldsWf_error _)

theorem rowFO_yieldsWf {mk : BitVec 12 → Instr} (h : ∀ o, WellFormed (mk o)) : YieldsWf (rowFO mk w) :=
  yieldsWf_ite (yieldsWf_ok (h _)) (yieldsWf_error _)

theorem rowFCHR_yieldsWf : YieldsWf (rowFCHR w) := yieldsWf_ite (yieldsWf_ok rfl) (yieldsWf_error _)

theorem rowFPITCH_yieldsWf : YieldsWf (rowFPITCH w) := yieldsWf_ite (yieldsWf_ok rfl) (yieldsWf_error _)

theorem rowFSET_yieldsWf : YieldsWf (rowFSET w) :=
  yieldsWf_ite (yieldsWf_map fun _ _ => rfl) (yieldsWf_error _)

end Formats

/-- The decoder answers well-formed instructions only: each arm of the opcode map is a row of one format, and the format's
lemma applies to it. -/
theorem decode_yieldsWf (w : Word) : YieldsWf (decode w) := by
  unfold decode
  split
  · exact yieldsWf_error _
  generalize (iField w).toNat = opcode
  split <;> simp only [rowF0_yieldsWf, rowFC_yieldsWf, rowFCD_yieldsWf, rowFCC_yieldsWf, rowFCCD_yieldsWf, rowFCI5_yieldsWf,
    rowFCI16_yieldsWf, rowFCI16D_yieldsWf, rowFCA_yieldsWf, rowFCAD_yieldsWf, rowFKA_yieldsWf, rowFCM_yieldsWf,
    rowFCMD_yieldsWf, rowFCSRead_yieldsWf, rowFCSWrite_yieldsWf, rowFCO_yieldsWf, rowFO_yieldsWf, rowFCHR_yieldsWf,
    rowFPITCH_yieldsWf, rowFSET_yieldsWf, yieldsWf_error, wellFormed_iff, Instr.dest, Instr.sfrOk, ne_eq, Option.some.injEq,
    reduceCtorEq, not_false_eq_true, and_true, imp_self, implies_true]

/-- Each of the eleven instructions with a CREGNA destination stops before any effect when that is FLAGS (R35, R403). -/
theorem exec_of_dest_flags {i : Instr} {s : State} (h : i.dest = some .flags) : exec i s = .fault .flagsAsDest := by
  cases i with
  | cpyCc | cpyCmx | rddelx | rddirx | cpyCm | cpyCs | rdacc64u | rdacc64l | sat64 | rddel | wrdld =>
    obtain rfl := Option.some.inj h
    rfl
  | _ => nomatch h

/-- Settles O6: a decoded instruction is well formed, so FLAGS is not its destination; executed all the same, `toDest`
raises the fault. -/
theorem flagsNeverDestination : Obligations.FlagsNeverDestination :=
  ⟨fun w i hd hw => (wellFormed_iff.mp (decode_yieldsWf w i hw)).1 hd, fun _ _ => exec_of_dest_flags⟩

end Sys2Proof.Machine
end

section
/-! PROOFS of the family 10_state: what an instruction may change (O19), who may write what (O20). -/

namespace Sys2Proof.Machine

/-! ### The frame of an outcome -/

/-- If the outcome is a next state, nothing outside `w` has changed on the way to it. -/
def Framed (w : Touch) (s : State) (o : Out) : Prop := ∀ t, o = .next t → Changes w s t

theorem Completes.framed {w : Touch} {s : State} {o : Out} {P : State → Prop} (h : Completes w s o P) : Framed w s o := by
  obtain ⟨t, ho, -, hc, -⟩ := h
  intro u hu
  cases ho.symm.trans hu
  exact hc

theorem framed_fault (w : Touch) (s : State) (f : Fault) : Framed w s (.fault f) := fun _ h => nomatch h

theorem framed_ite {w : Touch} {s : State} {c : Prop} [Decidable c] {a b : Out} (ha : Framed w s a) (hb : Framed w s b) :
    Framed w s (if c then a else b) := by
  split
  · exact ha
  · exact hb

theorem framed_toAcc32 (s : State) (v : Word) : Framed .toAcc32 s (toAcc32 s v) :=
  (toAcc32_completes (P := fun _ => True) trivial).framed

theorem framed_toAcc64 (s : State) (v : Long) : Framed .toAcc64 s (toAcc64 s v) :=
  (toAcc64_completes (P := fun _ => True) trivial).framed

theorem framed_toDest (s : State) (c : CReg) (v : Word) : Framed (destTouch c) s (toDest s c v) := by
  by_cases h : c = .flags
  · subst h
    exact framed_fault _ _ _
  · exact (toDest_completes s v h).framed

theorem framed_jumpIf (s : State) (taken : Bool) (o : BitVec 12) : Framed {} s (jumpIf s taken o) := by
  intro t ht
  obtain ⟨n, rfl, -, -⟩ := jumpIf_next ht
  exact changes_setPc s n

theorem framed_cpyCs (s : State) (c : CReg) (n : Sfr) : Framed (destTouch c) s (exec (.cpyCs c n) s) := by
  show Framed _ s (execCpyCs c n s)
  unfold execCpyCs
  split
  · exact framed_fault _ _ _
  · exact framed_fault _ _ _
  · exact framed_fault _ _ _
  · exact framed_toDest s .acc32 _
  · exact framed_toDest s (.r _) _

theorem framed_cpySc (s : State) (c : CReg) (n : Sfr) : Framed { sfr := [n] } s (exec (.cpySc c n) s) := by
  obtain ⟨hwrite, hnone⟩ := sfrWrite_holds s n (s.reg c)
  show Framed _ s (execCpySc c n s)
  unfold execCpySc
  cases hn : n.writable with
  | true =>
    obtain ⟨t, ht, hc, -, -⟩ := hwrite hn
    rw [ht]
    exact fun u hu => Host.Outcome.next.inj hu ▸ hc
  | false =>
    rw [hnone hn]
    exact framed_fault _ _ _

theorem framed_apmb (s : State) (c : CReg) (m : Fin 128) :
    Framed { acc32 := true, mreg := [m] } s (exec (.apmb c m) s) := by
  rintro t ⟨⟩
  exact
    { core := fun _ _ => rfl
      acc32 := fun h => nomatch h
      acc64 := fun _ => rfl
      mreg := fun _ h => get_set_other _ _ (by simpa using h)
      delay := fun _ _ => rfl
      sfr := fun n _ => by cases n <;> rfl
      out := fun _ _ => ⟨rfl, rfl⟩
      user := fun _ _ => rfl
      outside := ⟨rfl, rfl, rfl, rfl, rfl, rfl, rfl, fun _ => rfl, rfl, rfl, rfl, rfl⟩ }

/-- What an instruction may change, by the operation its meaning ends in. -/
theorem exec_framed (i : Instr) (s : State) : Framed (touchOf i s) s (exec i s) := by
  cases i with
  | abs | addi | add | adds | addsi | sub | subs | sl | slr | sls | slsr | sr | srr | sra | srar | multrr | multri | neg
  | log2 | inv | or | ori | and | andi | xor | xori | pitch | interp => exact framed_toAcc32 s _
  | exp2 => exact framed_ite (framed_toAcc32 s _) (framed_fault _ s _)
  | chr => exact framed_ite (framed_fault _ s _) (framed_toAcc32 s _)
  | clracc64 | macrr | macri | macrd | macid | machrr | machri | machrd | machid | ldacc64u | ldacc64l =>
    exact framed_toAcc64 s _
  | cpyCc x | cpyCm x | cpyCmx x | rdacc64u x | rdacc64l x | rddel x | rddelx x | rddirx x | sat64 x | wrdld x =>
    exact framed_toDest s x _
  | cpyCs c n => exact framed_cpyCs s c n
  | cpyMc c m => rintro t ⟨⟩; exact changes_mreg s m _
  | cpySc c n => exact framed_cpySc s c n
  | wrdel | wrdelx | wrdirx => exact (toDelay_completes s _ _).framed
  | jgez | jneg | jnz | jz | jzc | jmp => exact framed_jumpIf s _ _
  | apa | apra | aprra | apma => exact (allPassA_completes s _ _).framed
  | apb | aprb | aprrb => exact (allPassBDelay_completes s _ _).framed
  | apmb c m => exact framed_apmb s c m
  | set c u n => rintro t ⟨⟩; exact changes_user s u _

/-- Settles O19: each meaning ends in one of the shared operations, whose frame is known. -/
theorem frameOfEveryInstruction : Obligations.FrameOfEveryInstruction := exec_framed

/-! ### Which instructions may touch a piece of state -/

/-- The spec's lists of writers let `i` touch `w`: whatever piece `w` names, `i` is among the writers of that piece. -/
structure WritersAllow (i : Instr) (w : Touch) : Prop where
  acc64 : w.acc64 = true → i.mnemonic ∈ ["CLRACC64", "MACRR", "MACRI", "MACRD", "MACID", "MACHRR", "MACHRI", "MACHRD",
    "MACHID", "LDACC64U", "LDACC64L"]
  mreg : ∀ m, m ∈ w.mreg → i.mnemonic ∈ ["CPY_MC", "APMB"]
  delay : ∀ pa, pa ∈ w.delay → i.mnemonic ∈ ["WRDEL", "WRDELX", "WRDIRX", "APB", "APRB", "APRRB"]
  user : ∀ u, u ∈ w.user → i.mnemonic = "SET"
  sfr : ∀ n, n ∈ w.sfr → i.mnemonic = "CPY_SC"
  core : ∀ n, n ∈ w.core → i.dest = some (.r n) ∨ (n = 15 ∧ i.mnemonic ∈ ["APA", "APRA", "APRRA", "APMA"])

/-- Every instruction may write ACC32, or nothing. -/
theorem writersAllow_acc32 (i : Instr) (b : Bool) : WritersAllow i { acc32 := b } :=
  ⟨nofun, nofun, nofun, nofun, nofun, nofun⟩

theorem writersAllow_dest {i : Instr} {c : CReg} (h : i.dest = some c) : WritersAllow i (destTouch c) := by
  cases c with
  | r n => exact ⟨nofun, nofun, nofun, nofun, nofun, fun k hk => .inl (List.mem_singleton.mp hk ▸ h)⟩
  | acc32 => exact writersAllow_acc32 i true
  | flags => exact writersAllow_acc32 i false

/-- The writers of each piece, instruction by instruction; the destination of a copy or a read is a case of its own. -/
theorem touchOf_writersAllow (i : Instr) (s : State) : WritersAllow i (touchOf i s) := by
  cases i with
  | cpyCc | cpyCm | cpyCs | cpyCmx | rdacc64u | rdacc64l | rddel | rddelx | rddirx | sat64 | wrdld =>
    exact writersAllow_dest rfl
  | clracc64 | macrr | macri | macrd | macid | machrr | machri | machrd | machid | ldacc64u | ldacc64l =>
    exact ⟨fun _ => by simp [Instr.mnemonic], nofun, nofun, nofun, nofun, nofun⟩
  | cpyMc | apmb => exact ⟨nofun, fun _ _ => by simp [Instr.mnemonic], nofun, nofun, nofun, nofun⟩
  | wrdel | wrdelx | wrdirx | apb | aprb | aprrb =>
    exact ⟨nofun, nofun, fun _ _ => by simp [Instr.mnemonic], nofun, nofun, nofun⟩
  | set => exact ⟨nofun, nofun, nofun, fun _ _ => rfl, nofun, nofun⟩
  | cpySc => exact ⟨nofun, nofun, nofun, nofun, fun _ _ => rfl, nofun⟩
  | apa | apra | aprra | apma =>
    exact ⟨nofun, nofun, nofun, nofun, nofun, fun _ hn => .inr ⟨List.mem_singleton.mp hn, by simp [Instr.mnemonic]⟩⟩
  | jgez | jneg | jnz | jz | jzc | jmp => exact writersAllow_acc32 _ false
  | _ => exact writersAllow_acc32 _ true

/-- Settles O20: a piece of state that changed is one the frame lets the instruction touch, and the instructions that may
touch it are the listed ones. -/
theorem onlyTheseWrite : Obligations.OnlyTheseWrite := by
  intro i s t ht
  have frame : Changes (touchOf i s) s t := exec_framed i s t ht
  have writers : WritersAllow i (touchOf i s) := touchOf_writersAllow i s
  refine ⟨fun hne => ?_, fun ⟨m, hne⟩ => ?_, fun ⟨pa, hne⟩ => ?_, fun ⟨u, hne⟩ => ?_, fun hne => ?_, fun n hne => ?_⟩
  · exact writers.acc64 (Bool.of_not_eq_false fun h => hne (frame.acc64 h))
  · exact writers.mreg m (Decidable.not_not.mp fun h => hne (frame.mreg m h))
  · exact writers.delay pa (Decidable.not_not.mp fun h => hne (frame.delay pa h))
  · exact writers.user u (Decidable.not_not.mp fun h => hne (frame.user u h))
  · rcases hne with ⟨n, hread⟩ | ⟨k, hout⟩
    · exact writers.sfr n (Decidable.not_not.mp fun h => hread (frame.sfr n h))
    · exact writers.sfr (.out k) (Decidable.not_not.mp fun h => hout (frame.out k h).1)
  · exact writers.core n (Decidable.not_not.mp fun h => hne (frame.core n h))

end Sys2Proof.Machine
end

section
/-! PROOFS of the family 10_state: FLAGS reach their readers only (O24), and what a read of FLAGS delivers (O25). -/

namespace Sys2Proof.Machine

/-! ### Reads under other flag bits -/

@[simp] theorem State.withFlags_rel (s : State) (f : Half) (a : DAddr) : (s.withFlags f).rel a = s.rel a := rfl
@[simp] theorem State.withFlags_delayAt (s : State) (f : Half) (pa : DAddr) :
    (s.withFlags f).delayAt pa = s.delayAt pa := rfl
@[simp] theorem State.withFlags_dread (s : State) (f : Half) (pa : DAddr) : (s.withFlags f).dread pa = s.dread pa := rfl
@[simp] theorem State.withFlags_dreadRel (s : State) (f : Half) (a : DAddr) :
    (s.withFlags f).dreadRel a = s.dreadRel a := rfl

/-- A register other than FLAGS reads the same. -/
theorem reg_withFlags (s : State) (f : Half) {c : CReg} (h : (c == .flags) = false) : (s.withFlags f).reg c = s.reg c := by
  cases c with
  | r n => rfl
  | acc32 => rfl
  | flags => cases h

@[simp] theorem sfrRead_withFlags (s : State) (f : Half) (n : Sfr) : (s.withFlags f).sfrRead n = s.sfrRead n := by
  cases n <;> rfl

@[simp] theorem sfrWrite_withFlags (s : State) (f : Half) (n : Sfr) (v : Word) :
    (s.withFlags f).sfrWrite n v = (s.sfrWrite n v).map (·.withFlags f) := by
  cases n <;> rfl

/-! ### Ends of a meaning under other flag bits -/

theorem withFlags_ite (p : Prop) [Decidable p] (a b : Out) (f : Half) :
    withFlags (if p then a else b) f = if p then withFlags a f else withFlags b f := by
  split <;> rfl

theorem toAcc32_withFlags (s : State) (f : Half) (v : Word) : toAcc32 (s.withFlags f) v = withFlags (toAcc32 s v) f := rfl

theorem toAcc64_withFlags (s : State) (f : Half) (v : Long) : toAcc64 (s.withFlags f) v = withFlags (toAcc64 s v) f := rfl

theorem toDest_withFlags (s : State) (f : Half) (c : CReg) (v : Word) :
    toDest (s.withFlags f) c v = withFlags (toDest s c v) f := by
  cases c <;> rfl

theorem toDelay_withFlags (s : State) (f : Half) (pa : DAddr) (v : Word) :
    toDelay (s.withFlags f) pa v = withFlags (toDelay s pa v) f := rfl

theorem accumulate_withFlags (s : State) (f : Half) (a b : Word) :
    accumulate (s.withFlags f) a b = withFlags (accumulate s a b) f := rfl

theorem allPassA_withFlags (s : State) (f : Half) (d k : Word) :
    allPassA (s.withFlags f) d k = withFlags (allPassA s d k) f := rfl

theorem allPassBDelay_withFlags (s : State) (f : Half) (pa : DAddr) (k : Word) :
    allPassBDelay (s.withFlags f) pa k = withFlags (allPassBDelay s pa k) f := rfl

theorem jumpIf_withFlags (s : State) (f : Half) (taken : Bool) (o : BitVec 12) :
    jumpIf (s.withFlags f) taken o = withFlags (jumpIf s taken o) f := by
  rw [jumpIf, jumpIf, withFlags_ite]
  rfl

/-! ### The instructions -/

/-- Where no operand is FLAGS, every read is the same under other flag bits, and the end of the meaning carries them along. -/
theorem exec_withFlags {i : Instr} (s : State) (f : Half) (h : readsFlags i = false) :
    exec i (s.withFlags f) = withFlags (exec i s) f := by
  cases i with
  | abs c | addi c | addsi c | sl c | sls c | sr c | sra c | multri c | neg c | log2 c | inv c | ori c | andi c | xori c =>
    have hc := reg_withFlags s f (c := c) h
    simp only [exec, execAbs, execAddi, execAddsi, execSl, execSls, execSr, execSra, execMultri, execNeg, execLog2, execInv,
      execOri, execAndi, execXori, hc, toAcc32_withFlags]
  | add x y | adds x y | sub x y | subs x y | slr x y | slsr x y | srr x y | srar x y | multrr x y | or x y | and x y
  | xor x y =>
    obtain ⟨h1, h2⟩ := Bool.or_eq_false_iff.mp h
    have hx := reg_withFlags s f (c := x) h1
    have hy := reg_withFlags s f (c := y) h2
    simp only [exec, execAdd, execAdds, execSub, execSubs, execSlr, execSlsr, execSrr, execSrar, execMultrr, execOr, execAnd,
      execXor, hx, hy, toAcc32_withFlags]
  | exp2 c =>
    have hc := reg_withFlags s f (c := c) h
    simp only [exec, execExp2, hc, withFlags_ite]
    rfl
  | macri c | macrd c | machri c | machrd c | ldacc64u c | ldacc64l c =>
    have hc := reg_withFlags s f (c := c) h
    simp only [exec, execMacri, execMacrd, execMachri, execMachrd, execLdacc64u, execLdacc64l, hc, State.withFlags_dreadRel,
      State.withFlags_rel, State.withFlags_delayAt, State.withFlags_par, State.withFlags_acc64, accumulate_withFlags,
      toAcc64_withFlags]
  | macrr x y | machrr x y =>
    obtain ⟨h1, h2⟩ := Bool.or_eq_false_iff.mp h
    have hx := reg_withFlags s f (c := x) h1
    have hy := reg_withFlags s f (c := y) h2
    simp only [exec, execMacrr, execMachrr, hx, hy, accumulate_withFlags]
  | cpyCc x y | cpyCmx x y | rddelx x y | rddirx x y =>
    have hy := reg_withFlags s f (c := y) h
    simp only [exec, execCpyCc, execCpyCmx, execRddelx, execRddirx, hy, State.withFlags_mreg, State.withFlags_dreadRel,
      State.withFlags_dread, toDest_withFlags]
  | cpyCm | rdacc64u | rdacc64l | rddel | sat64 | wrdld => exact toDest_withFlags s f _ _
  | cpyCs c n =>
    simp only [exec, execCpyCs, sfrRead_withFlags]
    split <;> rfl
  | cpySc c n =>
    have hc := reg_withFlags s f (c := c) h
    simp only [exec, execCpySc, hc, sfrWrite_withFlags]
    cases s.sfrWrite n (s.reg c) <;> rfl
  | cpyMc c | set c | apmb c =>
    have hc := reg_withFlags s f (c := c) h
    simp only [exec, execCpyMc, execSet, execApmb, hc]
    rfl
  | wrdel c =>
    have hc := reg_withFlags s f (c := c) h
    simp only [exec, execWrdel, hc, State.withFlags_rel, toDelay_withFlags]
  | wrdelx x y | wrdirx x y =>
    obtain ⟨h1, h2⟩ := Bool.or_eq_false_iff.mp h
    have hx := reg_withFlags s f (c := x) h1
    have hy := reg_withFlags s f (c := y) h2
    simp only [exec, execWrdelx, execWrdirx, hx, hy, State.withFlags_rel, toDelay_withFlags]
  | jgez c | jneg c | jnz c | jz c | jzc c =>
    have hc := reg_withFlags s f (c := c) h
    simp only [exec, execJgez, execJneg, execJnz, execJz, execJzc, hc, State.withFlags_acc32, jumpIf_withFlags]
  | jmp o => exact jumpIf_withFlags s f true o
  | apra c | aprb c | apma c =>
    have hc := reg_withFlags s f (c := c) h
    simp only [exec, execApra, execAprb, execApma, hc, State.withFlags_par, State.withFlags_rel,
      State.withFlags_dreadRel, State.withFlags_mreg, allPassA_withFlags, allPassBDelay_withFlags]
  | aprra x y | aprrb x y =>
    obtain ⟨h1, h2⟩ := Bool.or_eq_false_iff.mp h
    have hx := reg_withFlags s f (c := x) h1
    have hy := reg_withFlags s f (c := y) h2
    simp only [exec, execAprra, execAprrb, hx, hy, State.withFlags_par, State.withFlags_rel, State.withFlags_dreadRel,
      allPassA_withFlags, allPassBDelay_withFlags]
  | interp c =>
    have hc := reg_withFlags s f (c := c) h
    simp only [exec, execInterp, interpAddr, hc, State.withFlags_par, State.withFlags_rel, State.withFlags_dread,
      toAcc32_withFlags]
  | chr neg lfo w addr =>
    simp only [exec, execChr, withFlags_ite]
    rfl
  | clracc64 | macid | machid | apa | apb | pitch => rfl

/-- Settles O24: no read but that of FLAGS sees the flag bits, and no end of a meaning changes them. -/
theorem flagsReachOnlyTheirReaders : Obligations.FlagsReachOnlyTheirReaders := fun _ s f h => exec_withFlags s f h

/-! ### What a read of FLAGS delivers -/

/-- The same completion with a weaker fact about the new state. -/
theorem Completes.mono {w : Touch} {s : State} {o : Out} {P Q : State → Prop} (h : Completes w s o P)
    (hPQ : ∀ t, P t → Q t) : Completes w s o Q := by
  obtain ⟨t, ho, hpc, hc, hP⟩ := h
  exact ⟨t, ho, hpc, hc, hPQ t hP⟩

/-- The flag bits below the free upper half. -/
theorem flagsWord_toNat (s : State) :
    (flagsWord s).toNat = (Config.undefinedBits s.drawIx).toNat / 65536 * 65536 + s.flags.toNat := by
  have hu := (Config.undefinedBits s.drawIx).isLt
  rw [flagsWord, append_toNat, BitVec.extractLsb_toNat, Nat.shiftRight_eq_div_pow]
  omega

/-- A zero-extended mask isolates the masked flag bits, whatever the upper half holds (R315). -/
theorem flagsWord_and_immUnsigned (s : State) (mask : Half) :
    (flagsWord s &&& immUnsigned mask).toNat = (s.flags &&& mask).toNat := by
  rw [flagsWord, immUnsigned, BitVec.and_append, append_toNat, BitVec.and_zero]
  simp

/-- Settles O25: FLAGS read as the word `flagsWord`, whose two halves are known. -/
theorem flagsRead : Obligations.FlagsRead := by
  intro s mask d
  have hword : (s.reg .flags).toNat = (Config.undefinedBits s.drawIx).toNat / 65536 * 65536 + s.flags.toNat :=
    flagsWord_toNat s
  have hflags := s.flags.isLt
  have hlow : (s.reg .flags).toNat % 65536 = s.flags.toNat := by omega
  refine ⟨hlow, by omega, toAcc32_completes (flagsWord_and_immUnsigned s mask), fun hd => ?_⟩
  exact (toDest_completes s _ hd).mono fun t ht => (congrArg (fun v => v.toNat % 65536) ht).trans hlow

end Sys2Proof.Machine
end

section
/-! PROOFS of the family 10_state: the loader at the boundary (O13), the machine after reset (O15, O16). -/

namespace Sys2Proof.Machine

/-! ### The boundary between two iterations -/

/-- With no instruction left to run a step is the boundary. -/
theorem step_at_end {s : State} (h : s.progLen ≤ s.pc) : step s = boundary s := if_neg (Nat.not_lt.mpr h)

theorem boundary_load {s : State} {p : Program} (hp : s.pending = some p) (hw : p.wf = true) :
    boundary s = .next (s.programChange p).driveInputs := by
  simp only [boundary, hp, hw, if_true]

theorem boundary_badProgram {s : State} {p : Program} (hp : s.pending = some p) (hw : p.wf = false) :
    boundary s = .refused .badProgram := by
  simp [boundary, hp, hw]

theorem boundary_noProgram {s : State} (hp : s.pending = none) (hl : s.progLen = 0) :
    boundary s = .refused .noProgram := by
  simp only [boundary, hp, hl, if_true]

/-- No settable register is among the inputs the hardware drives after a load. -/
theorem driveInputs_holds (s : State) (r : Settable) (v : Word) : s.driveInputs.holds r v ↔ s.holds r v := by
  cases r <;> exact Iff.rfl

/-- Settles O13: the three ways the boundary can go, by whether a program is selected and fits. -/
theorem boundaryLoads : Obligations.BoundaryLoads := by
  intro s hend
  rw [step_at_end hend]
  exact ⟨fun p hp hw => ⟨boundary_load hp hw, fun r v => (driveInputs_holds _ r v).mpr⟩,
    fun p => boundary_badProgram, boundary_noProgram⟩

/-! ### Reset -/

@[simp] theorem reset_core (n : Fin 16) : State.reset.core[n] = Config.unspecified 32 := by simp [State.reset]
@[simp] theorem reset_mreg (m : Fin 128) : State.reset.mreg[m] = Config.unspecified 32 := by simp [State.reset]
@[simp] theorem reset_dac (k : Fin 4) : State.reset.dac[k] = none := by simp [State.reset]
@[simp] theorem reset_delayAt (pa : DAddr) : State.reset.delayAt pa = 0 := rfl

/-- Settles O15: the fields of `State.reset`; its empty delay list reads 0 everywhere. -/
theorem resetValues : Obligations.ResetValues := ⟨rfl, rfl, rfl, reset_delayAt, reset_dac⟩

theorem unspecified_word_ne_zero : Config.unspecified 32 ≠ 0 := by decide

/-- Settles O16: every such register holds the one unspecified word, which is not 0. -/
theorem resetRegistersNonzero : Obligations.ResetRegistersNonzero :=
  ⟨fun n h => unspecified_word_ne_zero ((reset_core n).symm.trans h),
    fun m h => unspecified_word_ne_zero ((reset_mreg m).symm.trans h)⟩

end Sys2Proof.Machine
end

section
/-! PROOFS of the family 20_memory: the address functions in numbers (O44), and the circular buffer (O48). -/

namespace Sys2Proof.Machine

/-! ### Addresses (R85, R87, R88, R366) -/

theorem rel_toNat (s : State) (a : DAddr) : (s.rel a).toNat = (a.toNat + s.dcnt.toNat) % 32768 := BitVec.toNat_add a s.dcnt

theorem interpAddr_toNat (s : State) (v : Word) (a : DAddr) :
    (interpAddr s v a).toNat = (v.toNat / 65536 % 32768 + a.toNat + s.dcnt.toNat) % 32768 := by
  have hindex : (interpIndex v + a).toNat = (v.toNat / 65536 % 32768 + a.toNat) % 32768 := by
    rw [BitVec.toNat_add, interpIndex_toNat]
  rw [interpAddr, rel_toNat, hindex, Nat.mod_add_mod]

/-- Settles O44: each address function in numbers. -/
theorem addressArithmetic : Obligations.AddressArithmetic := fun s a v =>
  ⟨rel_toNat s a, indexAddr_toNat v, indexMreg_val v, interpAddr_toNat s v a⟩

/-! ### Delay memory over k sample ticks (R89, R445) -/

theorem ticks_delay (s : State) (k : Nat) : (State.tick^[k] s).delay = s.delay := by
  induction k generalizing s with
  | zero => rfl
  | succ k ih => rw [Function.iterate_succ_apply, ih, State.tick_delay]

theorem ticks_dcnt (s : State) (k : Nat) : (State.tick^[k] s).dcnt = s.dcnt - BitVec.ofNat 15 k := by
  induction k with
  | zero => exact (BitVec.sub_zero s.dcnt).symm
  | succ k ih =>
    rw [Function.iterate_succ_apply', State.tick_dcnt, ih, BitVec.ofNat_add]
    exact sub_sub s.dcnt (BitVec.ofNat 15 k) 1

theorem ticks_delayAt (s : State) (k : Nat) (pa : DAddr) : (State.tick^[k] s).delayAt pa = s.delayAt pa := by
  rw [State.delayAt, ticks_delay, State.delayAt]

/-- The physical place of a relative address moves on by one with every tick: DCNT goes down as the address goes up (R89). -/
theorem ticks_rel_add (s : State) (a : DAddr) (k : Nat) :
    (State.tick^[k] s).rel (a + BitVec.ofNat 15 k) = s.rel a := by
  rw [State.rel, ticks_dcnt, State.rel]
  exact add_add_sub_cancel a s.dcnt (BitVec.ofNat 15 k)

theorem ticks_dreadRel_add (s : State) (a : DAddr) (k : Nat) :
    (State.tick^[k] s).dreadRel (a + BitVec.ofNat 15 k) = s.dreadRel a := by
  rw [State.dreadRel, ticks_rel_add, State.dread, ticks_delayAt, State.dreadRel, State.dread]

/-! ### A store and the word it leaves (R84, R286) -/

/-- Read at the same relative address, the word WRDEL has stored is the register's upper half over zeros. -/
theorem wrdel_dreadRel {s t : State} {c : CReg} {a : DAddr} (h : exec (.wrdel c a) s = .next t) :
    t.dreadRel a = upperHalf (storedHalf (s.reg c)) := by
  have ht : (s.setDelay (s.rel a) (storedHalf (s.reg c))).advance = t := Host.Outcome.next.inj h
  have hword : t.delayAt (s.rel a) = storedHalf (s.reg c) := by
    rw [← ht]
    exact (delayAt_setDelay s (s.rel a) (s.rel a) _).trans (if_pos rfl)
  have hrel : t.rel a = s.rel a := by rw [← ht]; rfl
  rw [State.dreadRel, hrel, State.dread, hword]

theorem upperHalf_storedHalf_toNat (v : Word) : (upperHalf (storedHalf v)).toNat = v.toNat / 65536 * 65536 := by
  rw [upperHalf_toNat, storedHalf_toNat]

/-- Settles O48: `k` ticks keep the memory and move relative address `a + k` to where `a` was, so RDDEL there reads the word
WRDEL has stored. -/
theorem circularBuffer : Obligations.CircularBuffer := by
  intro s t c d a k hd hstore
  obtain ⟨u, hload, -, -, hu⟩ :=
    toDest_completes (State.tick^[k] t) ((State.tick^[k] t).dreadRel (a + BitVec.ofNat 15 k)) hd
  refine ⟨u, hload, ?_⟩
  rw [hu, ticks_dreadRel_add, wrdel_dreadRel hstore, upperHalf_storedHalf_toNat]

end Sys2Proof.Machine
end

section
/-! PROOFS of the family 30_encoding: the fields of an instruction word and the codes in them. -/

namespace Sys2Proof.Machine

/-! ### A bit field of fixed zeros above a field of free bits -/

/-- A mask of ones above zeros tests the upper part for 0. -/
theorem and_upperMask_eq_zero_iff {n k : Nat} (x : BitVec (n + k)) :
    x &&& (BitVec.allOnes n ++ 0#k) = 0 ↔ x.extractLsb' k n = 0 := by
  have hmasked : x &&& (BitVec.allOnes n ++ 0#k) = x.extractLsb' k n ++ 0#k := by
    conv_lhs => rw [← BitVec.extractLsb'_append_extractLsb' (x := x)]
    rw [BitVec.and_append, BitVec.and_allOnes, BitVec.and_zero]
  have hzero : (0 : BitVec (n + k)) = 0#n ++ 0#k := BitVec.zero_append_zero.symm
  rw [hmasked, hzero, BitVec.append_left_inj]
  rfl

/-- With the upper part 0, a field is its lower part below zeros. -/
theorem eq_zero_append {n k : Nat} {x : BitVec (n + k)} (h : x.extractLsb' k n = 0) : x = 0#n ++ x.extractLsb' 0 k := by
  conv_lhs => rw [← BitVec.extractLsb'_append_extractLsb' (x := x), h]
  rfl

/-! ### The fields of a word (R121) -/

section Fields
variable (f : BitVec 7) (r : BitVec 8) (m : Half)

theorem iField_wordOf : iField (wordOf f r m) = f := by
  unfold iField wordOf BitVec.extractLsb
  rw [BitVec.extractLsb'_append_eq_of_le (by decide), BitVec.extractLsb'_append_eq_of_le (by decide)]
  exact BitVec.extractLsb'_append_eq_left

theorem bit24_wordOf : (wordOf f r m).getLsbD 24 = false := by
  rw [wordOf, BitVec.getLsbD_append, BitVec.getLsbD_append, BitVec.getLsbD_append]
  rfl

/-- Bits 23:16 are the R field. -/
theorem extractR_wordOf {lo len : Nat} (h : lo + len ≤ 8) :
    (wordOf f r m).extractLsb' (16 + lo) len = r.extractLsb' lo len := by
  unfold wordOf
  rw [BitVec.extractLsb'_append_eq_of_le (by omega), BitVec.extractLsb'_append_eq_of_add_le (by omega),
    Nat.add_sub_cancel_left]

/-- Bits 15:0 are the M field. -/
theorem extractM_wordOf {lo len : Nat} (h : lo + len ≤ 16) :
    (wordOf f r m).extractLsb' lo len = m.extractLsb' lo len :=
  BitVec.extractLsb'_append_eq_of_add_le h

end Fields

/-- A word with bit 24 clear is made of its fields. -/
theorem exists_wordOf {w : Word} (h : w.getLsbD 24 = false) : ∃ f r m, w = wordOf f r m := by
  have hbit : w.extractLsb' 24 1 = 0#1 := by
    refine BitVec.eq_of_getLsbD_eq fun i hi => ?_
    obtain rfl : i = 0 := by omega
    simpa using h
  refine ⟨w.extractLsb' 25 7, w.extractLsb' 16 8, w.extractLsb' 0 16, ?_⟩
  rw [wordOf, ← hbit, BitVec.extractLsb'_append_extractLsb'_eq_extractLsb' (show 25 = 24 + 1 from rfl),
    BitVec.extractLsb'_append_extractLsb'_eq_extractLsb' (show 24 = 16 + 8 from rfl),
    BitVec.extractLsb'_append_extractLsb'_eq_extractLsb' (show 16 = 0 + 16 from rfl)]
  exact BitVec.extractLsb'_eq_self.symm

theorem wordOf_inj {f g : BitVec 7} {r q : BitVec 8} {m k : Half} :
    wordOf f r m = wordOf g q k ↔ f = g ∧ r = q ∧ m = k := by
  constructor
  · intro h
    have hf := congrArg iField h
    have hr := congrArg (BitVec.extractLsb' (16 + 0) 8) h
    have hm := congrArg (BitVec.extractLsb' 0 16) h
    rw [iField_wordOf, iField_wordOf] at hf
    rw [extractR_wordOf _ _ _ (by decide), extractR_wordOf _ _ _ (by decide), BitVec.extractLsb'_eq_self,
      BitVec.extractLsb'_eq_self] at hr
    rw [extractM_wordOf _ _ _ (by decide), extractM_wordOf _ _ _ (by decide), BitVec.extractLsb'_eq_self,
      BitVec.extractLsb'_eq_self] at hm
    exact ⟨hf, hr, hm⟩
  · rintro ⟨rfl, rfl, rfl⟩
    rfl

/-! ### The codes of operands -/

theorem coreReg_code (x : CReg) : coreReg x.code = .ok x := by
  cases x with
  | r n => exact dif_pos n.isLt
  | acc32 => rfl
  | flags => rfl

/-- The register of a code, or BadCoreReg for a code above 17 (R31, R142). -/
theorem coreReg_cases (c : BitVec 5) :
    (∃ x, coreReg c = .ok x ∧ x.code = c ∧ c.toNat < 18) ∨ (coreReg c = .error .badCoreReg ∧ 18 ≤ c.toNat) := by
  by_cases hr : c.toNat < 16
  · exact .inl ⟨.r ⟨c.toNat, hr⟩, dif_pos hr, rfl, by omega⟩
  by_cases h16 : c = 16
  · subst h16
    exact .inl ⟨.acc32, rfl, rfl, by decide⟩
  by_cases h17 : c = 17
  · subst h17
    exact .inl ⟨.flags, rfl, rfl, by decide⟩
  · refine .inr ⟨(dif_neg hr).trans ((if_neg h16).trans (if_neg h17)), ?_⟩
    have h16' : c.toNat ≠ 16 := fun h => h16 (BitVec.eq_of_toNat_eq h)
    have h17' : c.toNat ≠ 17 := fun h => h17 (BitVec.eq_of_toNat_eq h)
    omega

theorem notFlags_of_ne {c : CReg} (h : c ≠ .flags) : notFlags c = .ok c := if_neg h

theorem eq_of_notFlags_ok {c d : CReg} (h : notFlags c = .ok d) : d = c := by
  unfold notFlags at h
  split at h
  · cases h
  · exact (Except.ok.inj h).symm

theorem sfrOf_num (n : Sfr) : sfrOf n.num = .ok n := by
  cases n with
  | adc n | out n | potK n | pot n | potSmth n | lfoF n | rampF n | lfoSin n | lfoCos n | rampOut n => revert n; decide
  | _ => rfl

theorem num_of_sfrOf_ok {c : BitVec 6} {n : Sfr} (h : sfrOf c = .ok n) : n.num = c := by
  have hall : ∀ c : BitVec 6, ∀ k ∈ (sfrOf c).toOption, k.num = c := by decide
  exact hall c n (by rw [h]; rfl)

theorem eq_of_sfrForRead_ok {n k : Sfr} (h : sfrForRead n = .ok k) : k = n := by
  unfold sfrForRead at h
  split at h
  · exact (Except.ok.inj h).symm
  · cases h

theorem eq_of_sfrForWrite_ok {n k : Sfr} (h : sfrForWrite n = .ok k) : k = n := by
  unfold sfrForWrite at h
  split at h
  · exact (Except.ok.inj h).symm
  · cases h

theorem waveOf_bit (v : Wave) : waveOf v.bit = v := by cases v <;> rfl

theorem bit_waveOf (b : BitVec 1) : (waveOf b).bit = b := by revert b; decide

theorem blockLenOf_bits (l : BlockLen) : blockLenOf l.bits = l := by cases l <;> rfl

theorem bits_blockLenOf (b : BitVec 2) : (blockLenOf b).bits = b := by revert b; decide

end Sys2Proof.Machine
end

section
/-! PROOFS of the family 30_encoding: the decoder reads a well-formed instruction back from its word. Each format (R124) reads
what its encoding line writes; the main lemma goes through the instructions format by format. -/

namespace Sys2Proof.Machine

/-! ### Where each operand of an encoding stands (R125-R136) -/

section Fields
variable (f : BitVec 7) (r : BitVec 8) (c : CReg) (m : Half)

theorem extractLsb_regField_high : (wordOf f (regField c) m).extractLsb 23 21 = 0 :=
  (extractR_wordOf f (regField c) m (lo := 5) (by decide)).trans BitVec.extractLsb'_append_eq_left

theorem extractLsb_regField_code : (wordOf f (regField c) m).extractLsb 20 16 = c.code :=
  (extractR_wordOf f (regField c) m (lo := 0) (by decide)).trans BitVec.extractLsb'_append_eq_right

theorem extractLsb_R_wordOf : (wordOf f r m).extractLsb 23 16 = r :=
  (extractR_wordOf f r m (lo := 0) (by decide)).trans BitVec.extractLsb'_eq_self

theorem getLsbD_R_wordOf {i : Nat} (h : i < 8) : (wordOf f r m).getLsbD (16 + i) = r.getLsbD i := by
  have hbit := congrArg (BitVec.getLsbD · i) (extractLsb_R_wordOf f r m)
  simpa [BitVec.getLsbD_extractLsb, Nat.le_of_lt_succ h] using hbit

theorem extractLsb_M_wordOf : (wordOf f r m).extractLsb 15 0 = m :=
  (extractM_wordOf f r m (by decide)).trans BitVec.extractLsb'_eq_self

end Fields

/-- An M field of zeros above an operand: the zeros. -/
theorem extractLsb'_append_zero_append {v n k : Nat} (x : BitVec v) (y : BitVec k) :
    (x ++ (0#n ++ y)).extractLsb' k n = 0 := by
  rw [BitVec.extractLsb'_append_eq_of_add_le (by omega)]
  exact BitVec.extractLsb'_append_eq_left

/-- An M field of zeros above an operand: the operand. -/
theorem extractLsb'_zero_append_append {v n k : Nat} (x : BitVec v) (y : BitVec k) :
    (x ++ (0#n ++ y)).extractLsb' 0 k = y := by
  rw [BitVec.extractLsb'_append_eq_of_add_le (by omega)]
  exact BitVec.extractLsb'_append_eq_right

/-- The R field of CHR (R134). -/
def chrField (neg : Bool) (lfo : Fin 4) (v : Wave) : BitVec 8 :=
  0#4 ++ BitVec.ofBool neg ++ BitVec.ofFin (w := 2) lfo ++ v.bit

theorem chrField_parts (neg : Bool) (lfo : Fin 4) (v : Wave) :
    (chrField neg lfo v).extractLsb' 4 4 = 0 ∧ (chrField neg lfo v).getLsbD 3 = neg
      ∧ (chrField neg lfo v).extractLsb' 1 2 = BitVec.ofFin (w := 2) lfo ∧ (chrField neg lfo v).extractLsb' 0 1 = v.bit := by
  cases v <;> revert neg lfo <;> decide

/-- The R field of PITCH (R135). -/
def pitchField (x : Fin 4) (l : BlockLen) (r : Fin 2) : BitVec 8 :=
  0#2 ++ BitVec.ofFin (w := 2) x ++ l.bits ++ 0#1 ++ BitVec.ofFin (w := 1) r

theorem pitchField_parts (x : Fin 4) (l : BlockLen) (r : Fin 2) :
    (pitchField x l r).extractLsb' 6 2 = 0 ∧ (pitchField x l r).extractLsb' 4 2 = BitVec.ofFin (w := 2) x
      ∧ (pitchField x l r).extractLsb' 2 2 = l.bits ∧ (pitchField x l r).extractLsb' 1 1 = 0
      ∧ (pitchField x l r).extractLsb' 0 1 = BitVec.ofFin (w := 1) r := by
  cases l <;> revert x r <;> decide

/-- The M field of SET (R136). -/
def setField (u : Fin 2) (n : Fin 32) : Half := 0#10 ++ BitVec.ofFin (w := 1) u ++ BitVec.ofFin (w := 5) n

theorem setField_parts (u : Fin 2) (n : Fin 32) :
    (setField u n).extractLsb' 6 10 = 0 ∧ (setField u n).extractLsb' 5 1 = BitVec.ofFin (w := 1) u
      ∧ (setField u n).extractLsb' 0 5 = BitVec.ofFin (w := 5) n := by
  revert u n; decide

/-! ### One lemma for each format (R124) -/

section Formats
variable (f : BitVec 7)

theorem rowF0_wordF0 (i : Instr) : rowF0 i (wordF0 f) = .ok i :=
  if_pos ⟨extractLsb_R_wordOf f 0 0, extractLsb_M_wordOf f 0 0⟩

theorem rowFC_wordFC (mk : CReg → Instr) (c : CReg) : rowFC mk (wordFC f c) = .ok (mk c) := by
  rw [rowFC, wordFC, if_pos ⟨extractLsb_regField_high f c 0, extractLsb_M_wordOf f _ 0⟩, extractLsb_regField_code,
    coreReg_code]
  rfl

theorem rowFCD_wordFC (mk : CReg → Instr) {c : CReg} (h : c ≠ .flags) : rowFCD mk (wordFC f c) = .ok (mk c) := by
  rw [rowFCD, wordFC, if_pos ⟨extractLsb_regField_high f c 0, extractLsb_M_wordOf f _ 0⟩, extractLsb_regField_code,
    coreReg_code, Except.bind, notFlags_of_ne h]
  rfl

theorem rowFCC_wordFCC (mk : CReg → CReg → Instr) (x y : CReg) : rowFCC mk (wordFCC f x y) = .ok (mk x y) := by
  have hy : (wordOf f (regField x) (0#11 ++ y.code)).extractLsb 4 0 = y.code := extractLsb'_zero_append_append _ _
  rw [rowFCC, wordFCC, if_pos ⟨extractLsb_regField_high f x _, extractLsb'_append_zero_append _ _⟩,
    extractLsb_regField_code, hy, coreReg_code, Except.bind, coreReg_code]
  rfl

theorem rowFCCD_wordFCC (mk : CReg → CReg → Instr) {x : CReg} (y : CReg) (h : x ≠ .flags) :
    rowFCCD mk (wordFCC f x y) = .ok (mk x y) := by
  have hy : (wordOf f (regField x) (0#11 ++ y.code)).extractLsb 4 0 = y.code := extractLsb'_zero_append_append _ _
  rw [rowFCCD, wordFCC, if_pos ⟨extractLsb_regField_high f x _, extractLsb'_append_zero_append _ _⟩,
    extractLsb_regField_code, hy, coreReg_code, Except.bind, coreReg_code, Except.bind, notFlags_of_ne h]
  rfl

theorem rowFCI5_wordFCI5 (mk : CReg → BitVec 5 → Instr) (c : CReg) (n : BitVec 5) :
    rowFCI5 mk (wordFCI5 f c n) = .ok (mk c n) := by
  have hn : (wordOf f (regField c) (0#11 ++ n)).extractLsb 4 0 = n := extractLsb'_zero_append_append _ _
  rw [rowFCI5, wordFCI5, if_pos ⟨extractLsb_regField_high f c _, extractLsb'_append_zero_append _ _⟩,
    extractLsb_regField_code, hn, coreReg_code]
  rfl

theorem rowFCI16_wordFCI16 (mk : CReg → Half → Instr) (c : CReg) (imm : Half) :
    rowFCI16 mk (wordFCI16 f c imm) = .ok (mk c imm) := by
  rw [rowFCI16, wordFCI16, if_pos (extractLsb_regField_high f c imm), extractLsb_regField_code, extractLsb_M_wordOf,
    coreReg_code]
  rfl

theorem rowFCI16D_wordFCI16 (mk : CReg → Half → Instr) {c : CReg} (imm : Half) (h : c ≠ .flags) :
    rowFCI16D mk (wordFCI16 f c imm) = .ok (mk c imm) := by
  rw [rowFCI16D, wordFCI16, if_pos (extractLsb_regField_high f c imm), extractLsb_regField_code, extractLsb_M_wordOf,
    coreReg_code, Except.bind, notFlags_of_ne h]
  rfl

theorem rowFCA_wordFCA (mk : CReg → DAddr → Instr) (c : CReg) (a : DAddr) :
    rowFCA mk (wordFCA f c a) = .ok (mk c a) := by
  have ha : (wordOf f (regField c) (addrField a)).extractLsb 14 0 = a := extractLsb'_zero_append_append _ _
  rw [rowFCA, wordFCA, if_pos ⟨extractLsb_regField_high f c _, extractLsb'_append_zero_append _ _⟩,
    extractLsb_regField_code, ha, coreReg_code]
  rfl

theorem rowFCAD_wordFCA (mk : CReg → DAddr → Instr) {c : CReg} (a : DAddr) (h : c ≠ .flags) :
    rowFCAD mk (wordFCA f c a) = .ok (mk c a) := by
  have ha : (wordOf f (regField c) (addrField a)).extractLsb 14 0 = a := extractLsb'_zero_append_append _ _
  rw [rowFCAD, wordFCA, if_pos ⟨extractLsb_regField_high f c _, extractLsb'_append_zero_append _ _⟩,
    extractLsb_regField_code, ha, coreReg_code, Except.bind, notFlags_of_ne h]
  rfl

theorem rowFKA_wordFKA (mk : BitVec 8 → DAddr → Instr) (k : BitVec 8) (a : DAddr) :
    rowFKA mk (wordFKA f k a) = .ok (mk k a) := by
  have ha : (wordOf f k (addrField a)).extractLsb 14 0 = a := extractLsb'_zero_append_append _ _
  have hz : (wordOf f k (addrField a)).extractLsb 15 15 = 0 := extractLsb'_append_zero_append _ _
  rw [rowFKA, wordFKA, if_pos hz, extractLsb_R_wordOf, ha]

theorem rowFCM_wordFCM (mk : CReg → Fin 128 → Instr) (c : CReg) (n : Fin 128) :
    rowFCM mk (wordFCM f c n) = .ok (mk c n) := by
  have hn : (wordOf f (regField c) (0#9 ++ BitVec.ofFin (w := 7) n)).extractLsb 6 0 = BitVec.ofFin (w := 7) n :=
    extractLsb'_zero_append_append _ _
  rw [rowFCM, wordFCM, if_pos ⟨extractLsb_regField_high f c _, extractLsb'_append_zero_append _ _⟩,
    extractLsb_regField_code, hn, coreReg_code]
  rfl

theorem rowFCMD_wordFCM (mk : CReg → Fin 128 → Instr) {c : CReg} (n : Fin 128) (h : c ≠ .flags) :
    rowFCMD mk (wordFCM f c n) = .ok (mk c n) := by
  have hn : (wordOf f (regField c) (0#9 ++ BitVec.ofFin (w := 7) n)).extractLsb 6 0 = BitVec.ofFin (w := 7) n :=
    extractLsb'_zero_append_append _ _
  rw [rowFCMD, wordFCM, if_pos ⟨extractLsb_regField_high f c _, extractLsb'_append_zero_append _ _⟩,
    extractLsb_regField_code, hn, coreReg_code, Except.bind, notFlags_of_ne h]
  rfl

theorem rowFCSRead_wordFCS {c : CReg} {n : Sfr} (h : c ≠ .flags) (hn : n.readable = true) :
    rowFCSRead (wordFCS f c n) = .ok (.cpyCs c n) := by
  have hnum : (wordOf f (regField c) (0#10 ++ n.num)).extractLsb 5 0 = n.num := extractLsb'_zero_append_append _ _
  rw [rowFCSRead, wordFCS, if_pos ⟨extractLsb_regField_high f c _, extractLsb'_append_zero_append _ _⟩,
    extractLsb_regField_code, hnum, coreReg_code, Except.bind, notFlags_of_ne h, Except.bind, sfrOf_num, Except.bind,
    sfrForRead, if_pos hn]
  rfl

theorem rowFCSWrite_wordFCS (c : CReg) {n : Sfr} (hn : n.writable = true) :
    rowFCSWrite (wordFCS f c n) = .ok (.cpySc c n) := by
  have hnum : (wordOf f (regField c) (0#10 ++ n.num)).extractLsb 5 0 = n.num := extractLsb'_zero_append_append _ _
  rw [rowFCSWrite, wordFCS, if_pos ⟨extractLsb_regField_high f c _, extractLsb'_append_zero_append _ _⟩,
    extractLsb_regField_code, hnum, coreReg_code, Except.bind, sfrOf_num, Except.bind, sfrForWrite, if_pos hn]
  rfl

theorem rowFCO_wordFCO (mk : CReg → BitVec 12 → Instr) (c : CReg) (o : BitVec 12) :
    rowFCO mk (wordFCO f c o) = .ok (mk c o) := by
  have ho : (wordOf f (regField c) (0#4 ++ o)).extractLsb 11 0 = o := extractLsb'_zero_append_append _ _
  rw [rowFCO, wordFCO, if_pos ⟨extractLsb_regField_high f c _, extractLsb'_append_zero_append _ _⟩,
    extractLsb_regField_code, ho, coreReg_code]
  rfl

theorem rowFO_wordFO (mk : BitVec 12 → Instr) (o : BitVec 12) : rowFO mk (wordFO f o) = .ok (mk o) := by
  have ho : (wordOf f 0 (0#4 ++ o)).extractLsb 11 0 = o := extractLsb'_zero_append_append _ _
  rw [rowFO, wordFO, if_pos ⟨extractLsb_R_wordOf f 0 _, extractLsb'_append_zero_append _ _⟩, ho]

theorem rowFCHR_wordFCHR (neg : Bool) (lfo : Fin 4) (v : Wave) (a : DAddr) :
    rowFCHR (wordFCHR f neg lfo v a) = .ok (.chr neg lfo v a) := by
  obtain ⟨hz, hneg, hlfo, hv⟩ := chrField_parts neg lfo v
  have ha : (wordOf f (chrField neg lfo v) (addrField a)).extractLsb 14 0 = a := extractLsb'_zero_append_append _ _
  have hneg' : (wordOf f (chrField neg lfo v) (addrField a)).getLsbD 19 = neg :=
    (getLsbD_R_wordOf f _ _ (i := 3) (by decide)).trans hneg
  have hlfo' : (wordOf f (chrField neg lfo v) (addrField a)).extractLsb 18 17 = BitVec.ofFin (w := 2) lfo :=
    (extractR_wordOf f _ _ (lo := 1) (by decide)).trans hlfo
  have hv' : (wordOf f (chrField neg lfo v) (addrField a)).extractLsb 16 16 = v.bit :=
    (extractR_wordOf f _ _ (lo := 0) (by decide)).trans hv
  rw [wordFCHR, ← chrField, rowFCHR, if_pos ⟨(extractR_wordOf f _ _ (lo := 4) (by decide)).trans hz,
    extractLsb'_append_zero_append _ _⟩, ha, hneg', hlfo', hv', waveOf_bit]

theorem rowFPITCH_wordFPITCH (x : Fin 4) (l : BlockLen) (r : Fin 2) (a : DAddr) :
    rowFPITCH (wordFPITCH f x l r a) = .ok (.pitch x l r a) := by
  obtain ⟨hz, hx, hl, hz', hr⟩ := pitchField_parts x l r
  have ha : (wordOf f (pitchField x l r) (addrField a)).extractLsb 14 0 = a := extractLsb'_zero_append_append _ _
  have hx' : (wordOf f (pitchField x l r) (addrField a)).extractLsb 21 20 = BitVec.ofFin (w := 2) x :=
    (extractR_wordOf f _ _ (lo := 4) (by decide)).trans hx
  have hl' : (wordOf f (pitchField x l r) (addrField a)).extractLsb 19 18 = l.bits :=
    (extractR_wordOf f _ _ (lo := 2) (by decide)).trans hl
  have hr' : (wordOf f (pitchField x l r) (addrField a)).extractLsb 16 16 = BitVec.ofFin (w := 1) r :=
    (extractR_wordOf f _ _ (lo := 0) (by decide)).trans hr
  rw [wordFPITCH, ← pitchField, rowFPITCH, if_pos ⟨(extractR_wordOf f _ _ (lo := 6) (by decide)).trans hz,
    (extractR_wordOf f _ _ (lo := 1) (by decide)).trans hz', extractLsb'_append_zero_append _ _⟩, ha, hx', hl', hr',
    blockLenOf_bits]

theorem rowFSET_wordFSET (c : CReg) (u : Fin 2) (n : Fin 32) : rowFSET (wordFSET f c u n) = .ok (.set c u n) := by
  obtain ⟨hz, hu, hn⟩ := setField_parts u n
  have hu' : (wordOf f (regField c) (setField u n)).extractLsb 5 5 = BitVec.ofFin (w := 1) u :=
    (extractM_wordOf f _ _ (by decide)).trans hu
  have hn' : (wordOf f (regField c) (setField u n)).extractLsb 4 0 = BitVec.ofFin (w := 5) n :=
    (extractM_wordOf f _ _ (by decide)).trans hn
  rw [wordFSET, ← setField, rowFSET, if_pos ⟨extractLsb_regField_high f c _, (extractM_wordOf f _ _ (by decide)).trans hz⟩,
    extractLsb_regField_code, hu', hn', coreReg_code]
  rfl

end Formats

/-! ### Encoding, then decoding -/

theorem bit24_encode (i : Instr) : (encode i).getLsbD 24 = false := by
  cases i <;> exact bit24_wordOf _ _ _

/-- The decoder reads a well-formed instruction back from its word. -/
theorem decode_encode {i : Instr} (h : WellFormed i) : decode (encode i) = .ok i := by
  rw [decode, if_neg (Bool.eq_false_iff.mp (bit24_encode i))]
  obtain ⟨hdest, hsfr⟩ := wellFormed_iff.mp h
  have hflags {c : CReg} (hc : i.dest = some c) : c ≠ .flags := fun h => hdest (hc.trans (congrArg some h))
  cases i with
  | clracc64 => rw [encode, wordF0, iField_wordOf]; exact rowF0_wordF0 _ _
  | abs c | neg c | log2 c | exp2 c | ldacc64u c | ldacc64l c | inv c =>
    rw [encode, wordFC, iField_wordOf]; exact rowFC_wordFC _ _ c
  | rdacc64u c | rdacc64l c | sat64 c => rw [encode, wordFC, iField_wordOf]; exact rowFCD_wordFC _ _ (hflags rfl)
  | add x y | adds x y | sub x y | subs x y | slr x y | slsr x y | srr x y | srar x y | macrr x y | machrr x y
  | multrr x y | wrdelx x y | wrdirx x y | or x y | and x y | xor x y | aprra x y | aprrb x y =>
    rw [encode, wordFCC, iField_wordOf]; exact rowFCC_wordFCC _ _ x y
  | cpyCc x y | cpyCmx x y | rddelx x y | rddirx x y =>
    rw [encode, wordFCC, iField_wordOf]; exact rowFCCD_wordFCC _ _ y (hflags rfl)
  | sl c n | sls c n | sr c n | sra c n => rw [encode, wordFCI5, iField_wordOf]; exact rowFCI5_wordFCI5 _ _ c n
  | addi c v | addsi c v | macri c v | machri c v | multri c v | ori c v | andi c v | xori c v =>
    rw [encode, wordFCI16, iField_wordOf]; exact rowFCI16_wordFCI16 _ _ c v
  | wrdld c v => rw [encode, wordFCI16, iField_wordOf]; exact rowFCI16D_wordFCI16 _ _ v (hflags rfl)
  | macrd c a | machrd c a | wrdel c a | apra c a | aprb c a | interp c a =>
    rw [encode, wordFCA, iField_wordOf]; exact rowFCA_wordFCA _ _ c a
  | rddel c a => rw [encode, wordFCA, iField_wordOf]; exact rowFCAD_wordFCA _ _ a (hflags rfl)
  | macid k a | machid k a | apa k a | apb k a => rw [encode, wordFKA, iField_wordOf]; exact rowFKA_wordFKA _ _ k a
  | cpyMc c n | apma c n | apmb c n => rw [encode, wordFCM, iField_wordOf]; exact rowFCM_wordFCM _ _ c n
  | cpyCm c n => rw [encode, wordFCM, iField_wordOf]; exact rowFCMD_wordFCM _ _ n (hflags rfl)
  | cpyCs c n => rw [encode, wordFCS, iField_wordOf]; exact rowFCSRead_wordFCS _ (hflags rfl) hsfr
  | cpySc c n => rw [encode, wordFCS, iField_wordOf]; exact rowFCSWrite_wordFCS _ c hsfr
  | jgez c o | jneg c o | jnz c o | jz c o | jzc c o => rw [encode, wordFCO, iField_wordOf]; exact rowFCO_wordFCO _ _ c o
  | jmp o => rw [encode, wordFO, iField_wordOf]; exact rowFO_wordFO _ _ o
  | chr neg lfo v a => rw [encode, wordFCHR, iField_wordOf]; exact rowFCHR_wordFCHR _ neg lfo v a
  | pitch x l r a => rw [encode, wordFPITCH, iField_wordOf]; exact rowFPITCH_wordFPITCH _ x l r a
  | set c u n => rw [encode, wordFSET, iField_wordOf]; exact rowFSET_wordFSET _ c u n

end Sys2Proof.Machine
end

section
/-! PROOFS of the family 30_encoding: what a row of the opcode map allows as an answer for a word, and that each format (R124)
answers so. The fixed bits come first, then the operands in the order of the checks (R403). -/

namespace Sys2Proof.Machine

/-! ### What a row says of a word -/

/-- How many register codes a word of the row holds: one in the R field where the mask fixes bits 23:21 and leaves 20:16
(R125), a second one in the M field in format FCC. -/
def rowRegs (q : Row) : Nat :=
  if q.mask.extractLsb 23 16 ≠ 0xE0#8 then 0
  else if q.mask = 0xFFE0FFE0#32 ∧ q.mnemonic ∉ ["SL", "SLS", "SR", "SRA"] then 2
  else 1

/-- One of the first `n` register codes of the word names no register (R142). -/
def BadRegs : Nat → Word → Prop
  | 0, _ => False
  | 1, w => 18 ≤ (w.extractLsb 20 16).toNat ∨ False
  | _, w => 18 ≤ (w.extractLsb 20 16).toNat ∨ 18 ≤ (w.extractLsb 4 0).toNat ∨ False

/-- `e` is an answer that row `q` allows for the word. -/
structure RowAnswer (q : Row) (w : Word) (e : Except Reject Instr) : Prop where
  opcode : iField q.matchBits = iField w
  reserved : e = .error .reservedBits ↔ q.accepts w = false
  assigned : e ≠ .error .illegalOpcode
  encodes : ∀ i, e = .ok i → encode i = w
  badReg : q.accepts w = true → BadRegs (rowRegs q) w → e = .error .badCoreReg

/-- `e` is an answer that a row of the opcode map allows for the word. -/
def Answers (w : Word) (e : Except Reject Instr) : Prop := ∃ q ∈ opcodeRows, RowAnswer q w e

/-- The mask that fixes bits 31:24 and the bits `kr` and `km` of the R and the M field. -/
def maskOf (kr : BitVec 8) (km : Half) : Word := 0x7F#7 ++ 1#1 ++ kr ++ km

/-- The opcode map has a row with this I field, these fixed bits and so many register codes. -/
abbrev HasRow (f : BitVec 7) (kr : BitVec 8) (km : Half) (n : Nat) : Prop :=
  ∃ q ∈ opcodeRows, q.matchBits = wordOf f 0 0 ∧ q.mask = maskOf kr km ∧ rowRegs q = n

theorem accepts_wordOf {q : Row} {f : BitVec 7} {kr : BitVec 8} {km : Half} (hmatch : q.matchBits = wordOf f 0 0)
    (hmask : q.mask = maskOf kr km) (r : BitVec 8) (m : Half) :
    q.accepts (wordOf f r m) = true ↔ r &&& kr = 0 ∧ m &&& km = 0 := by
  rw [Row.accepts, beq_iff_eq, hmatch, hmask, maskOf, Laws.wordOf_and, wordOf_inj]
  exact and_iff_right rfl

/-! ### What the operands of a row say of a word -/

/-- The answer of a row once its fixed bits are right, where `bad` says that some register code names no register. -/
structure OperandAnswer (bad : Prop) (w : Word) (e : Except Reject Instr) : Prop where
  late : ∀ x, e = .error x → x ≠ .reservedBits ∧ x ≠ .illegalOpcode
  encodes : ∀ i, e = .ok i → encode i = w
  badReg : bad → e = .error .badCoreReg

section Operands
variable {w : Word} {bad : Prop}

theorem OperandAnswer.ok {i : Instr} (h : encode i = w) : OperandAnswer False w (.ok i) where
  late _ he := nomatch he
  encodes _ hi := Except.ok.inj hi ▸ h
  badReg hbad := hbad.elim

/-- A register code comes first: it names a register, or the answer is BadCoreReg. -/
theorem OperandAnswer.reg {c : BitVec 5} {g : CReg → Except Reject Instr}
    (h : ∀ x, x.code = c → OperandAnswer bad w (g x)) :
    OperandAnswer (18 ≤ c.toNat ∨ bad) w ((coreReg c).bind g) := by
  rcases coreReg_cases c with ⟨x, hx, hcode, hlt⟩ | ⟨herr, -⟩
  · rw [hx]
    have hrest := h x hcode
    exact ⟨hrest.late, hrest.encodes, fun hbad => hrest.badReg (hbad.resolve_left (by omega))⟩
  · rw [herr]
    exact ⟨fun x hx => Except.error.inj hx ▸ by decide, fun _ hi => (nomatch hi), fun _ => rfl⟩

/-- A check of an operand comes first, and its own error is no earlier one (R403). -/
theorem OperandAnswer.check {α : Type} {a : Except Reject α} {g : α → Except Reject Instr}
    (herr : ∀ x, a = .error x → x ≠ .reservedBits ∧ x ≠ .illegalOpcode)
    (hok : ∀ v, a = .ok v → OperandAnswer False w (g v)) : OperandAnswer False w (a.bind g) := by
  cases a with
  | error x => exact ⟨fun y hy => herr y (by cases hy; rfl), fun _ hi => (nomatch hi), False.elim⟩
  | ok v => exact hok v rfl

end Operands

theorem notFlags_late {c : CReg} (x : Reject) (h : notFlags c = .error x) : x ≠ .reservedBits ∧ x ≠ .illegalOpcode := by
  unfold notFlags at h
  split at h
  · exact Except.error.inj h ▸ by decide
  · cases h

theorem sfrOf_late {n : BitVec 6} (x : Reject) (h : sfrOf n = .error x) : x ≠ .reservedBits ∧ x ≠ .illegalOpcode := by
  unfold sfrOf at h
  split at h
  · cases h
  · exact Except.error.inj h ▸ by decide

theorem sfrForRead_late {n : Sfr} (x : Reject) (h : sfrForRead n = .error x) :
    x ≠ .reservedBits ∧ x ≠ .illegalOpcode := by
  unfold sfrForRead at h
  split at h
  · cases h
  · exact Except.error.inj h ▸ by decide

theorem sfrForWrite_late {n : Sfr} (x : Reject) (h : sfrForWrite n = .error x) :
    x ≠ .reservedBits ∧ x ≠ .illegalOpcode := by
  unfold sfrForWrite at h
  split at h
  · cases h
  · exact Except.error.inj h ▸ by decide

/-- A row answers ReservedBits where a fixed bit is wrong, else what its operands answer (R138, R403). -/
theorem HasRow.answers {f : BitVec 7} {r kr : BitVec 8} {m km : Half} {n : Nat} {fixed : Prop} [Decidable fixed]
    {e : Except Reject Instr} (hrow : HasRow f kr km n) (hfixed : fixed ↔ r &&& kr = 0 ∧ m &&& km = 0)
    (h : r &&& kr = 0 → m &&& km = 0 → OperandAnswer (BadRegs n (wordOf f r m)) (wordOf f r m) e) :
    Answers (wordOf f r m) (if fixed then e else .error .reservedBits) := by
  obtain ⟨q, hq, hmatch, hmask, hregs⟩ := hrow
  have haccepts := accepts_wordOf hmatch hmask r m
  have hopcode : iField q.matchBits = iField (wordOf f r m) := by rw [hmatch, iField_wordOf, iField_wordOf]
  refine ⟨q, hq, ?_⟩
  by_cases hfix : fixed
  · obtain ⟨hr, hm⟩ := hfixed.mp hfix
    have hacc := haccepts.mpr ⟨hr, hm⟩
    have hop := h hr hm
    rw [if_pos hfix]
    exact
      { opcode := hopcode
        reserved := ⟨fun he => absurd rfl (hop.late _ he).1, fun hrej => by rw [hacc] at hrej; cases hrej⟩
        assigned := fun he => (hop.late _ he).2 rfl
        encodes := hop.encodes
        badReg := fun _ hbad => hop.badReg (hregs ▸ hbad) }
  · have hrej : q.accepts (wordOf f r m) = false :=
      Bool.eq_false_iff.mpr fun hacc => hfix (hfixed.mpr (haccepts.mp hacc))
    rw [if_neg hfix]
    exact
      { opcode := hopcode
        reserved := ⟨fun _ => hrej, fun _ => rfl⟩
        assigned := nofun
        encodes := nofun
        badReg := fun hacc => by rw [hrej] at hacc; cases hacc }

/-! ### Fixed bits and operands of a word -/

theorem except_map_eq_bind {α β : Type} (a : Except Reject α) (g : α → β) : a.map g = a.bind fun v => .ok (g v) := by
  cases a <;> rfl

theorem except_bind_assoc {α β γ : Type} (a : Except Reject α) (g : α → Except Reject β) (k : β → Except Reject γ) :
    (a.bind g).bind k = a.bind fun v => (g v).bind k := by
  cases a <;> rfl

theorem upperM_eq_zero_iff {v n k : Nat} (x : BitVec v) (m : BitVec (n + k)) :
    (x ++ m).extractLsb' k n = 0 ↔ m &&& (BitVec.allOnes n ++ 0#k) = 0 := by
  rw [BitVec.extractLsb'_append_eq_of_add_le (Nat.le_of_eq (Nat.add_comm k n)), and_upperMask_eq_zero_iff]

/-- With its fixed bits 0, an M field is its operand below zeros. -/
theorem zero_append_lowerM {v n k : Nat} {m : BitVec (n + k)} (x : BitVec v)
    (h : m &&& (BitVec.allOnes n ++ 0#k) = 0) : 0#n ++ (x ++ m).extractLsb' 0 k = m := by
  rw [BitVec.extractLsb'_append_eq_of_add_le (by omega)]
  exact (eq_zero_append ((and_upperMask_eq_zero_iff m).mp h)).symm

section Fields
variable {f : BitVec 7} {r : BitVec 8} {m : Half}

theorem regFixed_iff : (wordOf f r m).extractLsb 23 21 = 0 ↔ r &&& 0xE0#8 = 0 := by
  rw [show (wordOf f r m).extractLsb 23 21 = r.extractLsb' 5 3 from extractR_wordOf f r m (lo := 5) (by decide)]
  exact (and_upperMask_eq_zero_iff (n := 3) (k := 5) r).symm

theorem wholeR_iff : (wordOf f r m).extractLsb 23 16 = 0 ↔ r &&& 0xFF#8 = 0 := by
  rw [extractLsb_R_wordOf]
  exact iff_of_eq (congrArg (· = 0) BitVec.and_allOnes.symm)

theorem wholeM_iff : (wordOf f r m).extractLsb 15 0 = 0 ↔ m &&& 0xFFFF#16 = 0 := by
  rw [extractLsb_M_wordOf]
  exact iff_of_eq (congrArg (· = 0) BitVec.and_allOnes.symm)

theorem regField_eq {x : CReg} (hr : r &&& 0xE0#8 = 0) (hx : x.code = (wordOf f r m).extractLsb 20 16) :
    regField x = r := by
  have hcode : x.code = r.extractLsb' 0 5 := hx.trans (extractR_wordOf f r m (lo := 0) (by decide))
  rw [regField, hcode]
  exact (eq_zero_append (n := 3) (k := 5) ((and_upperMask_eq_zero_iff (n := 3) (k := 5) r).mp hr)).symm

end Fields

theorem chrField_of_parts {r : BitVec 8} (h : r &&& 0xF0#8 = 0) :
    chrField (r.getLsbD 3) (r.extractLsb' 1 2).toFin (waveOf (r.extractLsb' 0 1)) = r := by
  revert r; decide

theorem pitchFixed_iff (r : BitVec 8) : r.extractLsb' 6 2 = 0 ∧ r.extractLsb' 1 1 = 0 ↔ r &&& 0xC2#8 = 0 := by
  revert r; decide

theorem pitchField_of_parts {r : BitVec 8} (h : r &&& 0xC2#8 = 0) :
    pitchField (r.extractLsb' 4 2).toFin (blockLenOf (r.extractLsb' 2 2)) (r.extractLsb' 0 1).toFin = r := by
  revert r; decide

theorem setField_of_parts {m : Half} (h : m &&& 0xFFC0#16 = 0) :
    setField (m.extractLsb' 5 1).toFin (m.extractLsb' 0 5).toFin = m := by
  have hupper : m.extractLsb' 6 10 = 0#10 := (and_upperMask_eq_zero_iff (n := 10) (k := 6) m).mp h
  unfold setField
  rw [← hupper]
  exact (congrArg (· ++ _) (BitVec.extractLsb'_append_extractLsb'_eq_extractLsb' (show 6 = 5 + 1 from rfl))).trans
    (BitVec.extractLsb'_append_extractLsb' (w := 11) (len := 5))

/-! ### One lemma for each format (R124) -/

section Formats
variable {f : BitVec 7} {r : BitVec 8} {m : Half}

theorem rowF0_answers {i : Instr} (hrow : HasRow f 0xFF 0xFFFF 0) (henc : encode i = wordF0 f) :
    Answers (wordOf f r m) (rowF0 i (wordOf f r m)) :=
  hrow.answers (and_congr wholeR_iff wholeM_iff) fun hr hm =>
    .ok (henc.trans (congrArg₂ (wordOf f) (hr.symm.trans BitVec.and_allOnes) (hm.symm.trans BitVec.and_allOnes)))

theorem rowFC_answers {mk : CReg → Instr} (hrow : HasRow f 0xE0 0xFFFF 1) (henc : ∀ c, encode (mk c) = wordFC f c) :
    Answers (wordOf f r m) (rowFC mk (wordOf f r m)) := by
  rw [rowFC, except_map_eq_bind]
  exact hrow.answers (and_congr regFixed_iff wholeM_iff) fun hr hm =>
    .reg fun x hx => .ok ((henc x).trans (congrArg₂ (wordOf f) (regField_eq hr hx) (hm.symm.trans BitVec.and_allOnes)))

theorem rowFCD_answers {mk : CReg → Instr} (hrow : HasRow f 0xE0 0xFFFF 1) (henc : ∀ c, encode (mk c) = wordFC f c) :
    Answers (wordOf f r m) (rowFCD mk (wordOf f r m)) := by
  rw [rowFCD, except_map_eq_bind, except_bind_assoc]
  exact hrow.answers (and_congr regFixed_iff wholeM_iff) fun hr hm =>
    .reg fun x hx => .check notFlags_late fun d hd => .ok ((henc d).trans
      (congrArg₂ (wordOf f) (eq_of_notFlags_ok hd ▸ regField_eq hr hx) (hm.symm.trans BitVec.and_allOnes)))

theorem rowFCC_answers {mk : CReg → CReg → Instr} (hrow : HasRow f 0xE0 0xFFE0 2)
    (henc : ∀ x y, encode (mk x y) = wordFCC f x y) : Answers (wordOf f r m) (rowFCC mk (wordOf f r m)) := by
  simp only [rowFCC, except_map_eq_bind]
  exact hrow.answers (and_congr regFixed_iff (upperM_eq_zero_iff (n := 11) (k := 5) _ m)) fun hr hm =>
    .reg fun x hx => .reg fun y hy => .ok ((henc x y).trans
      (congrArg₂ (wordOf f) (regField_eq hr hx) (hy ▸ zero_append_lowerM (n := 11) (k := 5) _ hm)))

theorem rowFCCD_answers {mk : CReg → CReg → Instr} (hrow : HasRow f 0xE0 0xFFE0 2)
    (henc : ∀ x y, encode (mk x y) = wordFCC f x y) : Answers (wordOf f r m) (rowFCCD mk (wordOf f r m)) := by
  simp only [rowFCCD, except_map_eq_bind]
  exact hrow.answers (and_congr regFixed_iff (upperM_eq_zero_iff (n := 11) (k := 5) _ m)) fun hr hm =>
    .reg fun x hx => .reg fun y hy => .check notFlags_late fun d hd => .ok ((henc d y).trans
      (congrArg₂ (wordOf f) (eq_of_notFlags_ok hd ▸ regField_eq hr hx)
        (hy ▸ zero_append_lowerM (n := 11) (k := 5) _ hm)))

theorem rowFCI5_answers {mk : CReg → BitVec 5 → Instr} (hrow : HasRow f 0xE0 0xFFE0 1)
    (henc : ∀ c n, encode (mk c n) = wordFCI5 f c n) : Answers (wordOf f r m) (rowFCI5 mk (wordOf f r m)) := by
  rw [rowFCI5, except_map_eq_bind]
  exact hrow.answers (and_congr regFixed_iff (upperM_eq_zero_iff (n := 11) (k := 5) _ m)) fun hr hm =>
    .reg fun x hx => .ok ((henc x _).trans
      (congrArg₂ (wordOf f) (regField_eq hr hx) (zero_append_lowerM (n := 11) (k := 5) _ hm)))

theorem rowFCI16_answers {mk : CReg → Half → Instr} (hrow : HasRow f 0xE0 0 1)
    (henc : ∀ c v, encode (mk c v) = wordFCI16 f c v) : Answers (wordOf f r m) (rowFCI16 mk (wordOf f r m)) := by
  rw [rowFCI16, except_map_eq_bind]
  exact hrow.answers (regFixed_iff.trans (and_iff_left BitVec.and_zero).symm) fun hr _ =>
    .reg fun x hx => .ok ((henc x _).trans
      (congrArg₂ (wordOf f) (regField_eq hr hx) (extractLsb_M_wordOf f r m)))

theorem rowFCI16D_answers {mk : CReg → Half → Instr} (hrow : HasRow f 0xE0 0 1)
    (henc : ∀ c v, encode (mk c v) = wordFCI16 f c v) : Answers (wordOf f r m) (rowFCI16D mk (wordOf f r m)) := by
  rw [rowFCI16D, except_map_eq_bind, except_bind_assoc]
  exact hrow.answers (regFixed_iff.trans (and_iff_left BitVec.and_zero).symm) fun hr _ =>
    .reg fun x hx => .check notFlags_late fun d hd => .ok ((henc d _).trans
      (congrArg₂ (wordOf f) (eq_of_notFlags_ok hd ▸ regField_eq hr hx) (extractLsb_M_wordOf f r m)))

theorem rowFCA_answers {mk : CReg → DAddr → Instr} (hrow : HasRow f 0xE0 0x8000 1)
    (henc : ∀ c a, encode (mk c a) = wordFCA f c a) : Answers (wordOf f r m) (rowFCA mk (wordOf f r m)) := by
  rw [rowFCA, except_map_eq_bind]
  exact hrow.answers (and_congr regFixed_iff (upperM_eq_zero_iff (n := 1) (k := 15) _ m)) fun hr hm =>
    .reg fun x hx => .ok ((henc x _).trans
      (congrArg₂ (wordOf f) (regField_eq hr hx) (zero_append_lowerM (n := 1) (k := 15) _ hm)))

theorem rowFCAD_answers {mk : CReg → DAddr → Instr} (hrow : HasRow f 0xE0 0x8000 1)
    (henc : ∀ c a, encode (mk c a) = wordFCA f c a) : Answers (wordOf f r m) (rowFCAD mk (wordOf f r m)) := by
  rw [rowFCAD, except_map_eq_bind, except_bind_assoc]
  exact hrow.answers (and_congr regFixed_iff (upperM_eq_zero_iff (n := 1) (k := 15) _ m)) fun hr hm =>
    .reg fun x hx => .check notFlags_late fun d hd => .ok ((henc d _).trans
      (congrArg₂ (wordOf f) (eq_of_notFlags_ok hd ▸ regField_eq hr hx) (zero_append_lowerM (n := 1) (k := 15) _ hm)))

theorem rowFKA_answers {mk : BitVec 8 → DAddr → Instr} (hrow : HasRow f 0 0x8000 0)
    (henc : ∀ k a, encode (mk k a) = wordFKA f k a) : Answers (wordOf f r m) (rowFKA mk (wordOf f r m)) :=
  hrow.answers ((upperM_eq_zero_iff (n := 1) (k := 15) _ m).trans (and_iff_right BitVec.and_zero).symm) fun _ hm =>
    .ok ((henc _ _).trans
      (congrArg₂ (wordOf f) (extractLsb_R_wordOf f r m) (zero_append_lowerM (n := 1) (k := 15) _ hm)))

theorem rowFCM_answers {mk : CReg → Fin 128 → Instr} (hrow : HasRow f 0xE0 0xFF80 1)
    (henc : ∀ c n, encode (mk c n) = wordFCM f c n) : Answers (wordOf f r m) (rowFCM mk (wordOf f r m)) := by
  rw [rowFCM, except_map_eq_bind]
  exact hrow.answers (and_congr regFixed_iff (upperM_eq_zero_iff (n := 9) (k := 7) _ m)) fun hr hm =>
    .reg fun x hx => .ok ((henc x _).trans
      (congrArg₂ (wordOf f) (regField_eq hr hx) (zero_append_lowerM (n := 9) (k := 7) _ hm)))

theorem rowFCMD_answers {mk : CReg → Fin 128 → Instr} (hrow : HasRow f 0xE0 0xFF80 1)
    (henc : ∀ c n, encode (mk c n) = wordFCM f c n) : Answers (wordOf f r m) (rowFCMD mk (wordOf f r m)) := by
  rw [rowFCMD, except_map_eq_bind, except_bind_assoc]
  exact hrow.answers (and_congr regFixed_iff (upperM_eq_zero_iff (n := 9) (k := 7) _ m)) fun hr hm =>
    .reg fun x hx => .check notFlags_late fun d hd => .ok ((henc d _).trans
      (congrArg₂ (wordOf f) (eq_of_notFlags_ok hd ▸ regField_eq hr hx) (zero_append_lowerM (n := 9) (k := 7) _ hm)))

theorem rowFCSRead_answers (hrow : HasRow f 0xE0 0xFFC0 1) (henc : ∀ c n, encode (.cpyCs c n) = wordFCS f c n) :
    Answers (wordOf f r m) (rowFCSRead (wordOf f r m)) := by
  simp only [rowFCSRead, except_map_eq_bind, except_bind_assoc]
  exact hrow.answers (and_congr regFixed_iff (upperM_eq_zero_iff (n := 10) (k := 6) _ m)) fun hr hm =>
    .reg fun x hx => .check notFlags_late fun d hd => .check sfrOf_late fun n hn => .check sfrForRead_late fun k hk =>
      .ok ((henc d k).trans (congrArg₂ (wordOf f) (eq_of_notFlags_ok hd ▸ regField_eq hr hx)
        (eq_of_sfrForRead_ok hk ▸ num_of_sfrOf_ok hn ▸ zero_append_lowerM (n := 10) (k := 6) _ hm)))

theorem rowFCSWrite_answers (hrow : HasRow f 0xE0 0xFFC0 1) (henc : ∀ c n, encode (.cpySc c n) = wordFCS f c n) :
    Answers (wordOf f r m) (rowFCSWrite (wordOf f r m)) := by
  simp only [rowFCSWrite, except_map_eq_bind, except_bind_assoc]
  exact hrow.answers (and_congr regFixed_iff (upperM_eq_zero_iff (n := 10) (k := 6) _ m)) fun hr hm =>
    .reg fun x hx => .check sfrOf_late fun n hn => .check sfrForWrite_late fun k hk =>
      .ok ((henc x k).trans (congrArg₂ (wordOf f) (regField_eq hr hx)
        (eq_of_sfrForWrite_ok hk ▸ num_of_sfrOf_ok hn ▸ zero_append_lowerM (n := 10) (k := 6) _ hm)))

theorem rowFCO_answers {mk : CReg → BitVec 12 → Instr} (hrow : HasRow f 0xE0 0xF000 1)
    (henc : ∀ c o, encode (mk c o) = wordFCO f c o) : Answers (wordOf f r m) (rowFCO mk (wordOf f r m)) := by
  rw [rowFCO, except_map_eq_bind]
  exact hrow.answers (and_congr regFixed_iff (upperM_eq_zero_iff (n := 4) (k := 12) _ m)) fun hr hm =>
    .reg fun x hx => .ok ((henc x _).trans
      (congrArg₂ (wordOf f) (regField_eq hr hx) (zero_append_lowerM (n := 4) (k := 12) _ hm)))

theorem rowFO_answers {mk : BitVec 12 → Instr} (hrow : HasRow f 0xFF 0xF000 0)
    (henc : ∀ o, encode (mk o) = wordFO f o) : Answers (wordOf f r m) (rowFO mk (wordOf f r m)) :=
  hrow.answers (and_congr wholeR_iff (upperM_eq_zero_iff (n := 4) (k := 12) _ m)) fun hr hm =>
    .ok ((henc _).trans
      (congrArg₂ (wordOf f) (hr.symm.trans BitVec.and_allOnes) (zero_append_lowerM (n := 4) (k := 12) _ hm)))

theorem rowFCHR_answers (hrow : HasRow f 0xF0 0x8000 0)
    (henc : ∀ neg lfo v a, encode (.chr neg lfo v a) = wordFCHR f neg lfo v a) :
    Answers (wordOf f r m) (rowFCHR (wordOf f r m)) := by
  have hz : (wordOf f r m).extractLsb 23 20 = 0 ↔ r &&& 0xF0#8 = 0 := by
    rw [show (wordOf f r m).extractLsb 23 20 = r.extractLsb' 4 4 from extractR_wordOf f r m (lo := 4) (by decide)]
    exact (and_upperMask_eq_zero_iff (n := 4) (k := 4) r).symm
  refine hrow.answers (and_congr hz (upperM_eq_zero_iff (n := 1) (k := 15) _ m)) fun hr hm =>
    .ok ((henc _ _ _ _).trans (congrArg₂ (wordOf f) ?_ (zero_append_lowerM (n := 1) (k := 15) _ hm)))
  rw [show (wordOf f r m).getLsbD 19 = r.getLsbD 3 from getLsbD_R_wordOf f r m (i := 3) (by decide),
    show (wordOf f r m).extractLsb 18 17 = r.extractLsb' 1 2 from extractR_wordOf f r m (lo := 1) (by decide),
    show (wordOf f r m).extractLsb 16 16 = r.extractLsb' 0 1 from extractR_wordOf f r m (lo := 0) (by decide)]
  exact chrField_of_parts hr

theorem rowFPITCH_answers (hrow : HasRow f 0xC2 0x8000 0)
    (henc : ∀ x l k a, encode (.pitch x l k a) = wordFPITCH f x l k a) :
    Answers (wordOf f r m) (rowFPITCH (wordOf f r m)) := by
  have hz : (wordOf f r m).extractLsb 23 22 = r.extractLsb' 6 2 := extractR_wordOf f r m (lo := 6) (by decide)
  have hz' : (wordOf f r m).extractLsb 17 17 = r.extractLsb' 1 1 := extractR_wordOf f r m (lo := 1) (by decide)
  have hfixed : (wordOf f r m).extractLsb 23 22 = 0 ∧ (wordOf f r m).extractLsb 17 17 = 0
      ∧ (wordOf f r m).extractLsb 15 15 = 0 ↔ r &&& 0xC2#8 = 0 ∧ m &&& 0x8000#16 = 0 := by
    rw [← and_assoc, hz, hz']
    exact and_congr (pitchFixed_iff r) (upperM_eq_zero_iff (n := 1) (k := 15) _ m)
  refine hrow.answers hfixed fun hr hm =>
    .ok ((henc _ _ _ _).trans (congrArg₂ (wordOf f) ?_ (zero_append_lowerM (n := 1) (k := 15) _ hm)))
  rw [show (wordOf f r m).extractLsb 21 20 = r.extractLsb' 4 2 from extractR_wordOf f r m (lo := 4) (by decide),
    show (wordOf f r m).extractLsb 19 18 = r.extractLsb' 2 2 from extractR_wordOf f r m (lo := 2) (by decide),
    show (wordOf f r m).extractLsb 16 16 = r.extractLsb' 0 1 from extractR_wordOf f r m (lo := 0) (by decide)]
  exact pitchField_of_parts hr

theorem rowFSET_answers (hrow : HasRow f 0xE0 0xFFC0 1) (henc : ∀ c u n, encode (.set c u n) = wordFSET f c u n) :
    Answers (wordOf f r m) (rowFSET (wordOf f r m)) := by
  rw [rowFSET, except_map_eq_bind]
  refine hrow.answers (and_congr regFixed_iff (upperM_eq_zero_iff (n := 10) (k := 6) _ m)) fun hr hm =>
    .reg fun x hx => .ok ((henc x _ _).trans (congrArg₂ (wordOf f) (regField_eq hr hx) ?_))
  rw [show (wordOf f r m).extractLsb 5 5 = m.extractLsb' 5 1 from extractM_wordOf f r m (by decide),
    show (wordOf f r m).extractLsb 4 0 = m.extractLsb' 0 5 from extractM_wordOf f r m (by decide)]
  exact setField_of_parts hm

end Formats
end Sys2Proof.Machine
end

section
/-! PROOFS of the family 30_encoding: the decoder row by row, and the statements on it (O1, O2, O3, O4, O5, O7). -/

namespace Sys2Proof.Machine

/-! ### The decoder, row by row (R138) -/

/-- Whatever the R and M fields of a word with the I field of an instruction, the decoder answers as a row allows: its arm for
that I field is the format of the instruction. -/
theorem decode_answers_of_instr (i : Instr) (r : BitVec 8) (m : Half) :
    Answers (wordOf (iField (encode i)) r m) (decode (wordOf (iField (encode i)) r m)) := by
  rw [decode, if_neg (Bool.eq_false_iff.mp (bit24_wordOf _ r m)), iField_wordOf]
  cases i with
  | clracc64 => rw [encode, wordF0, iField_wordOf]; exact rowF0_answers (by decide) rfl
  | abs | neg | log2 | exp2 | ldacc64u | ldacc64l | inv =>
    rw [encode, wordFC, iField_wordOf]; exact rowFC_answers (by decide) fun _ => rfl
  | rdacc64u | rdacc64l | sat64 => rw [encode, wordFC, iField_wordOf]; exact rowFCD_answers (by decide) fun _ => rfl
  | add | adds | sub | subs | slr | slsr | srr | srar | macrr | machrr | multrr | wrdelx | wrdirx | or | and | xor | aprra
  | aprrb => rw [encode, wordFCC, iField_wordOf]; exact rowFCC_answers (by decide) fun _ _ => rfl
  | cpyCc | cpyCmx | rddelx | rddirx =>
    rw [encode, wordFCC, iField_wordOf]; exact rowFCCD_answers (by decide) fun _ _ => rfl
  | sl | sls | sr | sra => rw [encode, wordFCI5, iField_wordOf]; exact rowFCI5_answers (by decide) fun _ _ => rfl
  | addi | addsi | macri | machri | multri | ori | andi | xori =>
    rw [encode, wordFCI16, iField_wordOf]; exact rowFCI16_answers (by decide) fun _ _ => rfl
  | wrdld => rw [encode, wordFCI16, iField_wordOf]; exact rowFCI16D_answers (by decide) fun _ _ => rfl
  | macrd | machrd | wrdel | apra | aprb | interp =>
    rw [encode, wordFCA, iField_wordOf]; exact rowFCA_answers (by decide) fun _ _ => rfl
  | rddel => rw [encode, wordFCA, iField_wordOf]; exact rowFCAD_answers (by decide) fun _ _ => rfl
  | macid | machid | apa | apb => rw [encode, wordFKA, iField_wordOf]; exact rowFKA_answers (by decide) fun _ _ => rfl
  | cpyMc | apma | apmb => rw [encode, wordFCM, iField_wordOf]; exact rowFCM_answers (by decide) fun _ _ => rfl
  | cpyCm => rw [encode, wordFCM, iField_wordOf]; exact rowFCMD_answers (by decide) fun _ _ => rfl
  | cpyCs => rw [encode, wordFCS, iField_wordOf]; exact rowFCSRead_answers (by decide) fun _ _ => rfl
  | cpySc => rw [encode, wordFCS, iField_wordOf]; exact rowFCSWrite_answers (by decide) fun _ _ => rfl
  | jgez | jneg | jnz | jz | jzc => rw [encode, wordFCO, iField_wordOf]; exact rowFCO_answers (by decide) fun _ _ => rfl
  | jmp => rw [encode, wordFO, iField_wordOf]; exact rowFO_answers (by decide) fun _ => rfl
  | chr => rw [encode, wordFCHR, iField_wordOf]; exact rowFCHR_answers (by decide) fun _ _ _ _ => rfl
  | pitch => rw [encode, wordFPITCH, iField_wordOf]; exact rowFPITCH_answers (by decide) fun _ _ _ _ => rfl
  | set => rw [encode, wordFSET, iField_wordOf]; exact rowFSET_answers (by decide) fun _ _ _ => rfl

/-- The 56 unassigned I values, as R140 lists them. -/
abbrev Unassigned (n : Nat) : Prop :=
  (0x1D ≤ n ∧ n ≤ 0x2F) ∨ (0x36 ≤ n ∧ n ≤ 0x3F) ∨ (0x4C ≤ n ∧ n ≤ 0x4F) ∨ (0x5D ≤ n ∧ n ≤ 0x5F) ∨ 0x6C ≤ n

theorem decode_of_unassigned {w : Word} (h24 : w.getLsbD 24 = false) (h : Unassigned (iField w).toNat) :
    decode w = .error .illegalOpcode := by
  rw [decode, if_neg (Bool.eq_false_iff.mp h24)]
  split
  case h_73 => rfl
  all_goals omega

theorem not_unassigned_of_decode_ne {w : Word} (h24 : w.getLsbD 24 = false) (h : decode w ≠ .error .illegalOpcode) :
    ¬ Unassigned (iField w).toNat :=
  fun hun => h (decode_of_unassigned h24 hun)

/-- The I fields of the rows, in the order of R139, are the five ranges that the unassigned values leave. -/
theorem opcodeRows_iFields : opcodeRows.map (fun q => (iField q.matchBits).toNat) =
    List.range' 0 29 ++ List.range' 0x30 6 ++ List.range' 0x40 12 ++ List.range' 0x50 13 ++ List.range' 0x60 12 := by
  decide

theorem mem_iFields_iff {n : Nat} (h : n < 128) :
    n ∈ opcodeRows.map (fun q => (iField q.matchBits).toNat) ↔ ¬ Unassigned n := by
  rw [opcodeRows_iFields]
  simp only [List.mem_append, List.mem_range'_1]
  omega

theorem not_unassigned_of_row {q : Row} (hq : q ∈ opcodeRows) : ¬ Unassigned (iField q.matchBits).toNat :=
  (mem_iFields_iff (iField q.matchBits).isLt).mp (List.mem_map_of_mem hq)

theorem exists_row_of_assigned {f : BitVec 7} (h : ¬ Unassigned f.toNat) : ∃ q ∈ opcodeRows, iField q.matchBits = f := by
  obtain ⟨q, hq, hf⟩ := List.mem_map.mp ((mem_iFields_iff f.isLt).mpr h)
  exact ⟨q, hq, BitVec.eq_of_toNat_eq hf⟩

/-- An instruction of each row, in the order of R139. -/
def rowInstrs : List Instr :=
  [.abs .acc32, .clracc64, .addi .acc32 0, .add .acc32 .acc32, .adds .acc32 .acc32, .addsi .acc32 0,
    .sub .acc32 .acc32, .subs .acc32 .acc32, .sl .acc32 0, .slr .acc32 .acc32, .sls .acc32 0, .slsr .acc32 .acc32,
    .sr .acc32 0, .srr .acc32 .acc32, .sra .acc32 0, .srar .acc32 .acc32, .macrr .acc32 .acc32, .macri .acc32 0,
    .macrd .acc32 0, .macid 0 0, .machrr .acc32 .acc32, .machri .acc32 0, .machrd .acc32 0, .machid 0 0,
    .multrr .acc32 .acc32, .multri .acc32 0, .neg .acc32, .log2 .acc32, .exp2 .acc32, .cpyCc .acc32 .acc32,
    .cpyCm .acc32 0, .cpyCs .acc32 .maxTempo, .cpyMc .acc32 0, .cpySc .acc32 .maxTempo, .cpyCmx .acc32 .acc32,
    .rdacc64u .acc32, .rdacc64l .acc32, .ldacc64u .acc32, .ldacc64l .acc32, .rddel .acc32 0, .wrdel .acc32 0,
    .rddelx .acc32 .acc32, .wrdelx .acc32 .acc32, .rddirx .acc32 .acc32, .wrdirx .acc32 .acc32, .sat64 .acc32,
    .wrdld .acc32 0, .inv .acc32, .or .acc32 .acc32, .ori .acc32 0, .and .acc32 .acc32, .andi .acc32 0,
    .xor .acc32 .acc32, .xori .acc32 0, .jgez .acc32 0, .jneg .acc32 0, .jnz .acc32 0, .jz .acc32 0, .jzc .acc32 0,
    .jmp 0, .apa 0 0, .apb 0 0, .apra .acc32 0, .aprb .acc32 0, .aprra .acc32 .acc32, .aprrb .acc32 .acc32,
    .apma .acc32 0, .apmb .acc32 0, .chr false 0 .sin 0, .pitch 0 .l512 0 0, .set .acc32 0 0, .interp .acc32 0]

theorem rowInstrs_iFields :
    rowInstrs.map (fun i => iField (encode i)) = opcodeRows.map (fun q => iField q.matchBits) := by
  decide

theorem exists_instr_of_row {q : Row} (hq : q ∈ opcodeRows) : ∃ i, iField (encode i) = iField q.matchBits := by
  have hmem : iField q.matchBits ∈ rowInstrs.map fun i => iField (encode i) := by
    rw [rowInstrs_iFields]
    exact List.mem_map_of_mem hq
  obtain ⟨i, -, hi⟩ := List.mem_map.mp hmem
  exact ⟨i, hi⟩

/-- With bit 24 clear and an assigned I field, the decoder answers as a row allows. -/
theorem decode_answers {w : Word} (h24 : w.getLsbD 24 = false) (h : ¬ Unassigned (iField w).toNat) :
    Answers w (decode w) := by
  obtain ⟨f, r, m, rfl⟩ := exists_wordOf h24
  rw [iField_wordOf] at h
  obtain ⟨q, hq, rfl⟩ := exists_row_of_assigned h
  obtain ⟨i, hi⟩ := exists_instr_of_row hq
  rw [← hi]
  exact decode_answers_of_instr i r m

/-! ### The rows apart (R139) -/

theorem opcodeRows_iFields_nodup : (opcodeRows.map fun q => (iField q.matchBits).toNat).Nodup := by
  rw [opcodeRows_iFields]
  decide

theorem row_eq_of_iField_eq {p q : Row} (hp : p ∈ opcodeRows) (hq : q ∈ opcodeRows)
    (h : iField p.matchBits = iField q.matchBits) : p = q :=
  List.inj_on_of_nodup_map opcodeRows_iFields_nodup hp hq (congrArg BitVec.toNat h)

/-- Every row fixes the I field and bit 24 (R122). -/
theorem opcodeRows_mask : ∀ q ∈ opcodeRows, q.mask.extractLsb 31 25 = BitVec.allOnes 7 := by decide

theorem opcodeRows_mask24 : ∀ q ∈ opcodeRows, q.mask.getLsbD 24 = true ∧ q.matchBits.getLsbD 24 = false := by decide

/-- A row accepts words of its own I field only. -/
theorem iField_of_accepts {q : Row} {w : Word} (hq : q ∈ opcodeRows) (h : q.accepts w = true) :
    iField q.matchBits = iField w := by
  rw [← beq_iff_eq.mp h, iField, BitVec.extractLsb_and, opcodeRows_mask q hq, BitVec.and_allOnes, iField]

/-- A row accepts words with bit 24 clear only. -/
theorem bit24_of_accepts {q : Row} {w : Word} (hq : q ∈ opcodeRows) (h : q.accepts w = true) : w.getLsbD 24 = false := by
  obtain ⟨hmask, hmatch⟩ := opcodeRows_mask24 q hq
  rw [← beq_iff_eq.mp h, BitVec.getLsbD_and, hmask, Bool.and_true] at hmatch
  exact hmatch

/-- The decoder answers as row `q` allows, for a word of its I field with bit 24 clear. -/
theorem decode_rowAnswer {w : Word} (h24 : w.getLsbD 24 = false) {q : Row} (hq : q ∈ opcodeRows)
    (hf : iField q.matchBits = iField w) : RowAnswer q w (decode w) := by
  obtain ⟨p, hp, hans⟩ := decode_answers h24 (hf ▸ not_unassigned_of_row hq)
  exact row_eq_of_iField_eq hp hq (hans.opcode.trans hf.symm) ▸ hans

theorem decode_of_bit24 {w : Word} (h : w.getLsbD 24 = true) : decode w = .error .reservedBits := if_pos h

/-- A decoded instruction comes from a row that accepts the word. -/
theorem exists_row_of_decode_ok {w : Word} {i : Instr} (h : decode w = .ok i) :
    ∃ q ∈ opcodeRows, q.accepts w = true ∧ RowAnswer q w (decode w) := by
  have h24 : w.getLsbD 24 = false := by
    by_contra hbit
    rw [decode_of_bit24 (Bool.eq_true_of_not_eq_false hbit)] at h
    cases h
  have hassigned := not_unassigned_of_decode_ne h24 (h ▸ nofun)
  obtain ⟨q, hq, hans⟩ := decode_answers h24 hassigned
  refine ⟨q, hq, Bool.eq_true_of_not_eq_false fun hrej => ?_, hans⟩
  rw [hans.reserved.mpr hrej] at h
  cases h

/-- Decoding a word, then encoding. -/
theorem encode_of_decode_ok {w : Word} {i : Instr} (h : decode w = .ok i) : encode i = w := by
  obtain ⟨q, -, -, hans⟩ := exists_row_of_decode_ok h
  exact hans.encodes i h

/-! ### The statements -/

/-- Settles O1: each row's operands encode back to its word, and each format reads back what its encoding holds. -/
theorem decodeEncode : Obligations.DecodeEncode := by
  intro w i
  constructor
  · intro h
    exact ⟨decode_yieldsWf w i h, encode_of_decode_ok h⟩
  · rintro ⟨hwf, rfl⟩
    exact decode_encode hwf

open Laws in
/-- The word of every instruction belongs to the row of its mnemonic: the family EncodedWord, gathered. -/
theorem encodedWord_all (i : Instr) : EncodedWord.Statement i := by
  cases i
  exacts [EncodedWord.abs .., EncodedWord.clracc64, EncodedWord.addi .., EncodedWord.add .., EncodedWord.adds ..,
    EncodedWord.addsi .., EncodedWord.sub .., EncodedWord.subs .., EncodedWord.sl .., EncodedWord.slr ..,
    EncodedWord.sls .., EncodedWord.slsr .., EncodedWord.sr .., EncodedWord.srr .., EncodedWord.sra ..,
    EncodedWord.srar .., EncodedWord.macrr .., EncodedWord.macri .., EncodedWord.macrd .., EncodedWord.macid ..,
    EncodedWord.machrr .., EncodedWord.machri .., EncodedWord.machrd .., EncodedWord.machid .., EncodedWord.multrr ..,
    EncodedWord.multri .., EncodedWord.neg .., EncodedWord.log2 .., EncodedWord.exp2 .., EncodedWord.cpyCc ..,
    EncodedWord.cpyCm .., EncodedWord.cpyCs .., EncodedWord.cpyMc .., EncodedWord.cpySc .., EncodedWord.cpyCmx ..,
    EncodedWord.rdacc64u .., EncodedWord.rdacc64l .., EncodedWord.ldacc64u .., EncodedWord.ldacc64l ..,
    EncodedWord.rddel .., EncodedWord.wrdel .., EncodedWord.rddelx .., EncodedWord.wrdelx .., EncodedWord.rddirx ..,
    EncodedWord.wrdirx .., EncodedWord.sat64 .., EncodedWord.wrdld .., EncodedWord.inv .., EncodedWord.or ..,
    EncodedWord.ori .., EncodedWord.and .., EncodedWord.andi .., EncodedWord.xor .., EncodedWord.xori ..,
    EncodedWord.jgez .., EncodedWord.jneg .., EncodedWord.jnz .., EncodedWord.jz .., EncodedWord.jzc ..,
    EncodedWord.jmp .., EncodedWord.apa .., EncodedWord.apb .., EncodedWord.apra .., EncodedWord.aprb ..,
    EncodedWord.aprra .., EncodedWord.aprrb .., EncodedWord.apma .., EncodedWord.apmb .., EncodedWord.chr ..,
    EncodedWord.pitch .., EncodedWord.set .., EncodedWord.interp ..]

/-- Settles O2: rows of different I fields share no word, and the word of an instruction belongs to its own row. -/
theorem opcodeRowUnique : Obligations.OpcodeRowUnique := by
  intro w i h
  obtain ⟨r, hr, hmnemonic, haccepts⟩ := encodedWord_all i
  rw [encode_of_decode_ok h] at haccepts
  refine ⟨r, hr, haccepts, hmnemonic, fun q hq hacc => row_eq_of_iField_eq hq hr ?_⟩
  rw [iField_of_accepts hq hacc, iField_of_accepts hr haccepts]

/-- Settles O3: an assigned I field is a row's, and no row answers IllegalOpcode. -/
theorem unassignedOpcodes : Obligations.UnassignedOpcodes := by
  intro w h24
  refine ⟨fun h => ?_, decode_of_unassigned h24⟩
  by_contra hassigned
  obtain ⟨q, -, hans⟩ := decode_answers h24 hassigned
  exact hans.assigned h

/-- Settles O4: bit 24 comes first, then the row of the I field, which is the only one with it. -/
theorem reservedBitsRejected : Obligations.ReservedBitsRejected := by
  intro w
  constructor
  · intro h
    by_contra hno
    obtain ⟨hbit, hrows⟩ := not_or.mp hno
    have h24 := Bool.eq_false_of_not_eq_true hbit
    have hassigned := not_unassigned_of_decode_ne h24 (h ▸ nofun)
    obtain ⟨q, hq, hans⟩ := decode_answers h24 hassigned
    exact hrows ⟨q, hq, hans.opcode, hans.reserved.mp h⟩
  · rintro (h24 | ⟨q, hq, hf, hrej⟩)
    · exact decode_of_bit24 h24
    · by_cases h24 : w.getLsbD 24 = true
      · exact decode_of_bit24 h24
      · exact (decode_rowAnswer (Bool.eq_false_of_not_eq_true h24) hq hf).reserved.mpr hrej

/-- Settles O5: the row's register codes are read before any other operand, and its mask says where they stand. -/
theorem badCoreRegRejected : Obligations.BadCoreRegRejected := by
  intro w q hq hacc hmask hbad
  refine (decode_rowAnswer (bit24_of_accepts hq hacc) hq (iField_of_accepts hq hacc)).badReg hacc ?_
  unfold rowRegs
  rw [if_neg (not_not.mpr hmask)]
  rcases hbad with hR | ⟨hFCC, hname, hM⟩
  · split
    · exact .inl hR
    · exact .inl hR
  · rw [if_pos ⟨hFCC, hname⟩]
    exact .inr (.inl hM)

/-- Settles O7: the decoder runs on each of the twelve words. -/
theorem workedEncodings : Obligations.WorkedEncodings := by
  unfold Obligations.WorkedEncodings
  decide

end Sys2Proof.Machine
end

section
/-! PROOFS of the family 30_encoding: a label and its jump (O53), the assembler's power (O54). -/

namespace Sys2Proof.Machine

/-! ### A label and its jump (R151, R330) -/

/-- The offset of a label is the way from the jump to it. -/
theorem labelOffset_eq_some {bias pc target : Nat} {o : BitVec 12} (h : labelOffset bias pc target = some o) :
    pc + bias + o.toNat = target := by
  unfold labelOffset at h
  split at h
  · next hrange =>
    rw [← Option.some.inj h, BitVec.toNat_ofNat]
    omega
  · cases h

/-- Settles O53: the label is the jump's target, so a label ahead of the jump and inside the program is well formed. -/
theorem labelReached : Obligations.LabelReached := by
  intro s target o hlabel hahead hinside
  have htarget : s.jumpTarget o = target := labelOffset_eq_some hlabel
  have hok : s.jumpOk o := (jumpOk_iff s o).mp ⟨htarget ▸ hahead, htarget ▸ hinside⟩
  obtain ⟨t, ht, -, hpc, -⟩ := jumpIf_jumps true True (iff_of_true rfl trivial) hok
  exact ⟨t, ht, (hpc trivial).trans htarget⟩

/-! ### The assembler's power (R148) -/

/-- To an integer exponent the assembler's power is the rational power. -/
theorem powValue_of_den_eq_one {a b : Rat} (ha : 0 < a) (hb : b.den = 1) : powValue a b = some (a ^ b.num) := by
  rw [powValue, if_pos hb]
  split
  · next hnum => rw [← zpow_natCast, Int.toNat_of_nonneg hnum]
  · next hnum =>
    have hneg : b.num = -(b.num.natAbs : ℤ) := by omega
    rw [quotient, if_neg (pow_ne_zero _ ha.ne'), one_div]
    conv_rhs => rw [hneg, zpow_neg, zpow_natCast]

/-- The real power to an integer exponent is the rational power. -/
theorem rpow_of_den_eq_one (a : Rat) {b : Rat} (hb : b.den = 1) : ((a ^ b.num : Rat) : ℝ) = (a : ℝ) ^ (b : ℝ) := by
  conv_rhs => rw [← Rat.coe_int_num_of_den_eq_one hb]
  push_cast
  exact (Real.rpow_intCast (a : ℝ) b.num).symm

/-- To any other exponent the assembler takes the real power of the base or of its inverse. -/
theorem powValue_of_den_ne_one {a b : Rat} (ha : 0 < a) (hb : b.den ≠ 1) :
    powValue a b = some (realPower (if 0 < b then a else a⁻¹) b.num.natAbs b.den (32 + Config.asmPowerBits)
      (Config.asmPowerRoundsUp a b)) := by
  rw [powValue, if_neg hb, if_neg ha.ne', if_neg ha.not_gt]

/-- The real power of the base, or of its inverse where the exponent is not positive, to the exponent's absolute value. -/
theorem rpow_natAbs_div_den {a b : Rat} (ha : 0 < a) :
    ((if 0 < b then a else a⁻¹ : Rat) : ℝ) ^ ((b.num.natAbs : ℝ) / (b.den : ℝ)) = (a : ℝ) ^ (b : ℝ) := by
  have hcast : (b : ℝ) = (b.num : ℝ) / (b.den : ℝ) := Rat.cast_def b
  split
  · next hpos =>
    have habs : (b.num.natAbs : ℝ) = (b.num : ℝ) := by
      rw [Nat.cast_natAbs, abs_of_pos (Rat.num_pos.mpr hpos)]
    rw [habs, ← hcast]
  · next hneg =>
    have habs : (b.num.natAbs : ℝ) = -(b.num : ℝ) := by
      rw [Nat.cast_natAbs, abs_of_nonpos (Rat.num_nonpos.mpr (not_lt.mp hneg)), Int.cast_neg]
    have haR : (0 : ℝ) ≤ (a : ℝ) := by exact_mod_cast ha.le
    rw [habs, neg_div, ← hcast, Rat.cast_inv, Real.inv_rpow haR, Real.rpow_neg haR, inv_inv]

/-- Settles O54: an integer exponent is exact, and any other is within the precision of `realPower`. -/
theorem assemblerPower : Obligations.AssemblerPower := by
  intro a b ha
  by_cases hb : b.den = 1
  · refine ⟨_, powValue_of_den_eq_one ha hb, ?_, fun _ => rpow_of_den_eq_one a hb⟩
    rw [rpow_of_den_eq_one a hb, sub_self, abs_zero]
    positivity
  · refine ⟨_, powValue_of_den_ne_one ha hb, ?_, fun h => absurd h hb⟩
    have hbase : 0 < (if 0 < b then a else a⁻¹) := by
      split
      · exact ha
      · exact inv_pos.mpr ha
    have herror := realPower_error _ hbase b.num.natAbs b.den (32 + Config.asmPowerBits) b.den_ne_zero
      (Config.asmPowerRoundsUp a b)
    rw [rpow_natAbs_div_den ha] at herror
    exact herror.trans (one_div_le_one_div_of_le (by positivity) (pow_le_pow_right₀ one_le_two (Nat.le_add_right 32 _)))

end Sys2Proof.Machine
end

section
/-! PROOFS of the family 40_math_arith: the results of math operations, part 1, in numbers (O26 to O32). Each operation but
CLRACC64 ends in `toAcc32`, whose frame is `toAcc32_completes`; what is left is the value it puts in ACC32. -/

namespace Sys2Proof.Machine

/-! ### Absolute value (R201) -/

theorem absWord_of_nonneg {v : Word} (h : 0 ≤ v.toInt) : absWord v = v := if_pos h

theorem absWord_intMin : absWord 0x80000000#32 = absMin := rfl

/-- ABS of a negative operand that has a positive counterpart. -/
theorem absWord_toInt_of_neg {v : Word} (hneg : v.toInt < 0) (hmin : v ≠ 0x80000000#32) :
    (absWord v).toInt = -v.toInt := by
  obtain ⟨hpos, -⟩ | ⟨heq, -⟩ | ⟨-, -, habs⟩ := absWord_cases v
  · exact absurd hneg (not_lt.mpr hpos)
  · exact absurd heq hmin
  · exact habs

/-- The two values that the open parameter ABS_MIN ranges over (D15, log 10). -/
theorem absMin_cases : absMin = 0x7FFFFFFF#32 ∨ absMin = 0x80000000#32 := ite_eq_or_eq _ _ _

/-- Settles O26: the three kinds of operand, the last of them with the open value `absMin`. -/
theorem absResult : Obligations.AbsResult := by
  intro s c
  have hmin : s.reg c = 0x80000000#32 → absWord (s.reg c) = 0x7FFFFFFF#32 ∨ absWord (s.reg c) = 0x80000000#32 := by
    intro h
    rw [h, absWord_intMin]
    exact absMin_cases
  exact toAcc32_completes ⟨absWord_of_nonneg, absWord_toInt_of_neg, hmin⟩

/-! ### Clearing ACC64 (R202) -/

/-- Settles O27: the value 0 goes to ACC64, and `toAcc64` changes nothing else. -/
theorem clracc64Result : Obligations.Clracc64Result := fun s => toAcc64_completes (s.setAcc64_acc64 0)

/-! ### Sums and differences (R203-R208, R242) -/

/-- The unsigned value of a word is its signed value modulo 2^32. -/
theorem word_toNat_eq_toInt_emod (v : Word) : (v.toNat : Int) = v.toInt % 4294967296 := by
  have h := v.isLt
  rw [BitVec.toInt_eq_toNat_cond]
  split <;> omega

/-- ADDI's sum: the sign extension keeps the immediate's value modulo 2^32. -/
theorem add_immSigned_toNat (v : Word) (imm : Half) :
    ((v + immSigned imm).toNat : Int) = ((v.toNat : Int) + imm.toInt) % 4294967296 := by
  have himm : ((immSigned imm).toNat : Int) = imm.toInt % 4294967296 := by
    rw [word_toNat_eq_toInt_emod, immSigned_toInt]
  rw [BitVec.toNat_add]
  omega

theorem sub_toNat_eq_emod (a b : Word) : ((a - b).toNat : Int) = ((a.toNat : Int) - b.toNat) % 4294967296 := by
  have hb := b.isLt
  rw [BitVec.toNat_sub]
  omega

/-- Settles O28: the value of each wrapping operation, under the frame of `toAcc32`. -/
theorem wrappingArithmetic : Obligations.WrappingArithmetic := fun s c x y imm =>
  ⟨toAcc32_completes (add_immSigned_toNat (s.reg c) imm),
    toAcc32_completes (BitVec.toNat_add (s.reg x) (s.reg y)),
    toAcc32_completes (sub_toNat_eq_emod (s.reg x) (s.reg y))⟩

/-- ADDSI's sum: the immediate stands in the upper half (R206). -/
theorem addSat_upperHalf_toInt (v : Word) (imm : Half) :
    (addSat v (upperHalf imm)).toInt = clamp32 (v.toInt + imm.toInt * 65536) := by
  rw [addSat_toInt, upperHalf_toInt]

/-- Settles O29: the value of each saturating operation, under the frame of `toAcc32`. -/
theorem saturatingArithmetic : Obligations.SaturatingArithmetic := fun s c x y imm =>
  ⟨toAcc32_completes (addSat_toInt (s.reg x) (s.reg y)),
    toAcc32_completes (addSat_upperHalf_toInt (s.reg c) imm),
    toAcc32_completes (subSat_toInt (s.reg x) (s.reg y)),
    toAcc32_completes (negSat_toInt (s.reg c))⟩

/-! ### Shifts (R209-R216) -/

/-! A shift by a register is the shift by the immediate that the register's 5 low bits spell (R210). -/

theorem exec_slr_eq_sl (x y : CReg) (s : State) : exec (.slr x y) s = exec (.sl x (shiftCount (s.reg y))) s := rfl

theorem exec_slsr_eq_sls (x y : CReg) (s : State) : exec (.slsr x y) s = exec (.sls x (shiftCount (s.reg y))) s := rfl

theorem exec_srr_eq_sr (x y : CReg) (s : State) : exec (.srr x y) s = exec (.sr x (shiftCount (s.reg y))) s := rfl

theorem exec_srar_eq_sra (x y : CReg) (s : State) : exec (.srar x y) s = exec (.sra x (shiftCount (s.reg y))) s := rfl

/-- Settles O30: the value of each plain shift, under the frame of `toAcc32`. -/
theorem shiftsByImmediate : Obligations.ShiftsByImmediate := fun s c n =>
  ⟨toAcc32_completes (shiftLeft_toNat (s.reg c) n),
    toAcc32_completes (shiftRight_toNat (s.reg c) n),
    toAcc32_completes (shiftRightArith_toInt (s.reg c) n)⟩

/-- Settles O31: the plain shifts by an immediate (O30), the count being the register's 5 low bits. -/
theorem shiftsByRegister : Obligations.ShiftsByRegister := by
  intro s x y
  rw [exec_slr_eq_sl, exec_srr_eq_sr, exec_srar_eq_sra, ← shiftCount_toNat (s.reg y)]
  exact shiftsByImmediate s x (shiftCount (s.reg y))

/-- SLS: the product with a power of two, saturated (D28). -/
theorem sls_completes (s : State) (c : CReg) (n : BitVec 5) :
    Completes .toAcc32 s (exec (.sls c n) s) fun t => t.acc32.toInt = clamp32 ((s.reg c).toInt * 2 ^ n.toNat) :=
  toAcc32_completes (shiftLeftSat_toInt (s.reg c) n)

/-- Settles O32: SLS by the immediate and SLSR as SLS by the register's 5 low bits. -/
theorem saturatingShifts : Obligations.SaturatingShifts := by
  intro s c x y n
  rw [exec_slsr_eq_sls, ← shiftCount_toNat (s.reg y)]
  exact ⟨sls_completes s c n, sls_completes s x (shiftCount (s.reg y))⟩

end Sys2Proof.Machine
end

section
/-! PROOFS of the family 41_math_mac: multiply-accumulate (O33), multiply (O35), LOG2 and EXP2 (O36). Each ends in
`accumulate` or `toAcc32`, whose frames are `accumulate_completes` and `toAcc32_completes`; what is left is the value. -/

namespace Sys2Proof.Machine

/-! ### Multiply-accumulate (R231, R247) -/

/-- `accumulate` in the numbers of its two operands. -/
theorem accumulate_completes_of_toInt (s : State) {a b : Word} {m n : Int} (ha : a.toInt = m) (hb : b.toInt = n) :
    Completes .toAcc64 s (accumulate s a b) fun t => t.acc64.toInt = macSum s m n := by
  rw [← ha, ← hb]
  exact accumulate_completes s a b

/-- A delay operand is the stored half, as S.31 (R84). -/
theorem dreadRel_toInt (s : State) (a : DAddr) : (s.dreadRel a).toInt = (s.delayAt (s.rel a)).toInt * 65536 :=
  dread_toInt s (s.rel a)

/-- Settles O33: each of the four accumulates the product of the operands that R247 gives it. -/
theorem multiplyAccumulate : Obligations.MultiplyAccumulate := fun s _ _ _ imm k a =>
  ⟨accumulate_completes_of_toInt s rfl rfl,
    accumulate_completes_of_toInt s rfl (upperHalf_toInt imm),
    accumulate_completes_of_toInt s rfl (dreadRel_toInt s a),
    accumulate_completes_of_toInt s (coefficient_toInt k) (dreadRel_toInt s a)⟩

/-! ### Multiply (R240, R241) -/

/-- Only -1.0 has the least signed value. -/
theorem eq_intMin_iff_toInt (v : Word) : v = 0x80000000#32 ↔ v.toInt = -2147483648 :=
  BitVec.toInt_inj.symm

/-- Of the products of two numbers of the 32-bit signed range only that of the two least ones reaches 2^62. -/
theorem product_range {a b : Int} (ha : -2147483648 ≤ a ∧ a ≤ 2147483647) (hb : -2147483648 ≤ b ∧ b ≤ 2147483647)
    (hmin : ¬ (a = -2147483648 ∧ b = -2147483648)) :
    -4611686018427387904 ≤ a * b ∧ a * b < 4611686018427387904 := by
  obtain ⟨ha1, ha2⟩ := ha
  obtain ⟨hb1, hb2⟩ := hb
  constructor
  · nlinarith
  · by_cases h : a = -2147483648
    · subst h
      omega
    · have ha3 : -2147483647 ≤ a := by omega
      nlinarith

/-- The upper half of the doubled product, where the product is not that of -1.0 and -1.0. -/
theorem mulUpper_toInt_of_not_both_min {a b : Word} (hmin : ¬ (a = 0x80000000#32 ∧ b = 0x80000000#32)) :
    (mulUpper a b).toInt = a.toInt * b.toInt / 2147483648 := by
  rw [eq_intMin_iff_toInt, eq_intMin_iff_toInt] at hmin
  obtain ⟨hlo, hhi⟩ := product_range (word_range a) (word_range b) hmin
  rw [mulUpper_toInt, mul_assoc]
  unfold clamp64
  omega

/-- The one product that saturates, -1.0 times -1.0. -/
theorem mulUpper_of_both_min {a b : Word} (ha : a = 0x80000000#32) (hb : b = 0x80000000#32) :
    mulUpper a b = 0x7FFFFFFF#32 := by
  subst ha hb
  decide

/-- The S.15 immediate -1.0 is the S.31 number -1.0, and no other immediate is. -/
theorem upperHalf_eq_intMin_iff (imm : Half) : upperHalf imm = 0x80000000#32 ↔ imm = 0x8000#16 := by
  rw [eq_intMin_iff_toInt, upperHalf_toInt, ← BitVec.toInt_inj, show (0x8000#16).toInt = -32768 by decide]
  omega

/-- MULTRI's product in numbers: the zeros below the immediate drop out of the quotient. -/
theorem mulUpper_upperHalf_toInt {a : Word} {imm : Half} (hmin : ¬ (a = 0x80000000#32 ∧ imm = 0x8000#16)) :
    (mulUpper a (upperHalf imm)).toInt = a.toInt * imm.toInt / 32768 := by
  rw [← upperHalf_eq_intMin_iff] at hmin
  rw [mulUpper_toInt_of_not_both_min hmin, upperHalf_toInt, ← mul_assoc]
  omega

/-- Settles O35: the value off and at the one pair of operands that saturates, under the frame of `toAcc32`. -/
theorem multiplyResult : Obligations.MultiplyResult := fun _ _ _ _ imm =>
  ⟨toAcc32_completes ⟨mulUpper_toInt_of_not_both_min, mulUpper_of_both_min⟩,
    toAcc32_completes ⟨mulUpper_upperHalf_toInt,
      fun hc himm => mulUpper_of_both_min hc ((upperHalf_eq_intMin_iff imm).mpr himm)⟩⟩

/-! ### LOG2 and EXP2 (R243, R244) -/

/-- Bit 31 is the sign. -/
theorem getLsbD_31_iff_neg (v : Word) : v.getLsbD 31 = true ↔ v.toInt < 0 := by
  rw [← BitVec.msb_eq_getLsbD_last, BitVec.msb_eq_toInt, decide_eq_true_iff]

theorem exec_exp2_of_neg {s : State} {c : CReg} (h : (s.reg c).toInt < 0) :
    exec (.exp2 c) s = toAcc32 s (Config.exp2Fn (s.reg c)) :=
  if_pos ((getLsbD_31_iff_neg _).mpr h)

theorem exec_exp2_of_nonneg {s : State} {c : CReg} (h : 0 ≤ (s.reg c).toInt) :
    exec (.exp2 c) s = .fault .exp2NonNegative :=
  if_neg fun hbit => not_lt.mpr h ((getLsbD_31_iff_neg _).mp hbit)

/-- Settles O36: LOG2 has one path; EXP2 has two, and the operand's sign chooses. -/
theorem logarithmAndExponential : Obligations.LogarithmAndExponential := by
  intro s c
  refine ⟨toAcc32_completes rfl, fun hneg => ?_, exec_exp2_of_nonneg⟩
  rw [exec_exp2_of_neg hneg]
  exact toAcc32_completes rfl

end Sys2Proof.Machine
end

section
/-! PROOFS of the family 42_copy: copies into a core register (O37) and into an MREG (O38), reads (O39) and writes (O40) of
the SFRs. The frames are those of `toDest`, `setMreg` and `sfrWrite`; what is left is which value arrives. -/

namespace Sys2Proof.Machine

/-! ### Copies between core registers and MREGs (R261, R262, R264, R266) -/

/-- The MREG that an index register names, by the index in numbers. -/
theorem mreg_indexMreg (s : State) (v : Word) :
    s.mreg[indexMreg v] = s.mreg[v.toNat % 128]'(Nat.mod_lt _ (by decide)) := by
  simp only [Fin.getElem_fin, indexMreg_val]

/-- Settles O37: each of the three ends in `toDest`; CPY_CMX first reduces its index. -/
theorem copyToCore : Obligations.CopyToCore := by
  intro s x y m hx
  refine ⟨toDest_completes s _ hx, toDest_completes s _ hx, ?_⟩
  rw [← mreg_indexMreg]
  exact toDest_completes s _ hx

/-- Settles O38: the one update is `setMreg`. -/
theorem copyToMreg : Obligations.CopyToMreg := fun s c m =>
  ⟨_, rfl, rfl, changes_mreg s m (s.reg c), get_set_same _ _ _⟩

/-! ### Reads of the SFRs (R263, R45) -/

/-- CPY_CS of an SFR that delivers a value. -/
theorem exec_cpyCs_of_read {s : State} {n : Sfr} {v : Word} (c : CReg) (h : s.sfrRead n = some v) :
    exec (.cpyCs c n) s = toDest s c v := by
  show execCpyCs c n s = _
  unfold execCpyCs
  rw [h]
  cases c <;> rfl

/-- CPY_CS of an SFR that delivers none, into a destination that FlagsAsDest does not stop first. -/
theorem exec_cpyCs_of_unreadable {s : State} {c : CReg} {n : Sfr} (hc : c ≠ .flags) (h : s.sfrRead n = none) :
    exec (.cpyCs c n) s = .fault .sfrNotReadable := by
  show execCpyCs c n s = _
  unfold execCpyCs
  rw [h]
  cases c with
  | flags => exact absurd rfl hc
  | r k => rfl
  | acc32 => rfl

/-- Settles O39: what `sfrRead` delivers is what the table shows, and the destination takes it. -/
theorem copyFromSfr : Obligations.CopyFromSfr := by
  intro s c n hc
  obtain ⟨hread, hnone⟩ := sfrRead_shows s n
  refine ⟨fun hn => ?_, fun hn => exec_cpyCs_of_unreadable hc (hnone hn)⟩
  obtain ⟨v, hv, hshows⟩ := hread hn
  rw [exec_cpyCs_of_read c hv]
  exact (toDest_completes s v hc).mono fun t (htaken : t.reg c = v) => htaken.symm ▸ hshows

/-! ### Writes of the SFRs (R265, R46) -/

/-- CPY_SC of an SFR that takes the value. -/
theorem exec_cpySc_of_write {s t : State} {c : CReg} {n : Sfr} (h : s.sfrWrite n (s.reg c) = some t) :
    exec (.cpySc c n) s = done t := by
  show execCpySc c n s = _
  unfold execCpySc
  rw [h]

/-- CPY_SC of an SFR that takes none. -/
theorem exec_cpySc_of_unwritable {s : State} {c : CReg} {n : Sfr} (h : s.sfrWrite n (s.reg c) = none) :
    exec (.cpySc c n) s = .fault .sfrNotWritable := by
  show execCpySc c n s = _
  unfold execCpySc
  rw [h]
  rfl

/-- The step of pc leaves every SFR as it is. -/
theorem sfrHolds_advance (s : State) (n : Sfr) (v : Word) : s.advance.sfrHolds n v ↔ s.sfrHolds n v := by
  cases n <;> rfl

/-- Settles O40: a write that succeeds holds the value under the frame of `sfrWrite`, and the step of pc keeps it. -/
theorem copyToSfr : Obligations.CopyToSfr := by
  intro s c n
  obtain ⟨hwrite, hnone⟩ := sfrWrite_holds s n (s.reg c)
  refine ⟨fun hn => ?_, fun hn => exec_cpySc_of_unwritable (hnone hn)⟩
  obtain ⟨t, ht, hframe, hpc, hholds⟩ := hwrite hn
  have hpc' : t.advance.pc = s.pc + 1 := congrArg (· + 1) hpc
  exact ⟨t.advance, exec_cpySc_of_write ht, hpc', hframe, (sfrHolds_advance t n _).mpr hholds⟩

end Sys2Proof.Machine
end

section
/-! PROOFS of the family 43_loadstore: the halves of ACC64 (O41), SAT64 (O42), WRDLD (O43) and the constant it builds with ORI
(O50), delay reads (O45), delay writes (O46) and the two in turn (O47). The frames are those of `toDest`, `toAcc64`, `toDelay`
and `toAcc32`; what is left is the value in numbers. -/

namespace Sys2Proof.Machine

/-! ### Completion, for the reader of a result -/

/-- What a CREGNA destination other than FLAGS shows of the value it takes: `f` is `BitVec.toNat` or `BitVec.toInt`. -/
theorem toDest_completes_of_eq {α : Type} {s : State} {c : CReg} {v : Word} {x : α} (f : Word → α) (hc : c ≠ .flags)
    (hv : f v = x) : Completes (destTouch c) s (toDest s c v) fun t => f (t.reg c) = x :=
  (toDest_completes s v hc).mono fun _ htaken => (congrArg f htaken).trans hv

/-- The next state of an instruction that completes is the one the completion speaks of. -/
theorem Completes.of_next {w : Touch} {s t : State} {o : Out} {P : State → Prop} (h : Completes w s o P)
    (ho : o = .next t) : t.pc = s.pc + 1 ∧ Changes w s t ∧ P t := by
  obtain ⟨u, hu, hpc, hframe, hP⟩ := h
  cases ho.symm.trans hu
  exact ⟨hpc, hframe, hP⟩

/-! ### The halves of ACC64 (R281-R284, R291) -/

theorem upper_toNat (v : Long) : (v.extractLsb 63 32 : Word).toNat = v.toNat / 4294967296 := by
  have hv := v.isLt
  simp only [BitVec.extractLsb_toNat, Nat.shiftRight_eq_div_pow]
  omega

theorem lower_toNat (v : Long) : (v.extractLsb 31 0 : Word).toNat = v.toNat % 4294967296 := by
  simp only [BitVec.extractLsb_toNat, Nat.shiftRight_eq_div_pow]
  omega

theorem append_words_toNat (u l : Word) : (u ++ l : Long).toNat = u.toNat * 4294967296 + l.toNat := append_toNat u l

/-- LDACC64U's new ACC64. -/
theorem append_lower_toNat (u : Word) (v : Long) :
    (u ++ (v.extractLsb 31 0 : Word) : Long).toNat = u.toNat * 4294967296 + v.toNat % 4294967296 := by
  rw [append_words_toNat, lower_toNat]

/-- LDACC64L's new ACC64. -/
theorem upper_append_toNat (v : Long) (l : Word) :
    ((v.extractLsb 63 32 : Word) ++ l : Long).toNat = v.toNat / 4294967296 * 4294967296 + l.toNat := by
  rw [append_words_toNat, upper_toNat]

/-- Settles O41: the loads put a register beside the half they keep, the reads copy one half. -/
theorem accumulatorHalves : Obligations.AccumulatorHalves := fun s c _ =>
  ⟨toAcc64_completes (append_lower_toNat (s.reg c) s.acc64),
    toAcc64_completes (upper_append_toNat s.acc64 (s.reg c)),
    fun hd => ⟨toDest_completes_of_eq BitVec.toNat hd (upper_toNat s.acc64),
      toDest_completes_of_eq BitVec.toNat hd (lower_toNat s.acc64)⟩⟩

/-- Settles O42: `sat64Upper` is the floor by 2^32, times 8, clamped (D28), and the destination takes it. -/
theorem sat64Result : Obligations.Sat64Result := fun s _ hc =>
  toDest_completes_of_eq BitVec.toInt hc (sat64Upper_toInt s.acc64)

/-! ### Immediates in the upper half (R292, R313, R318) -/

/-- Settles O43: the destination takes `upperHalf` of the immediate. -/
theorem wrdldResult : Obligations.WrdldResult := fun _ _ imm hc =>
  toDest_completes_of_eq BitVec.toNat hc (upperHalf_toNat imm)

/-- Two halves at their places do not overlap: their OR is their sum. -/
theorem upperHalf_or_immUnsigned_toNat (hi lo : Half) :
    (upperHalf hi ||| immUnsigned lo).toNat = hi.toNat * 65536 + lo.toNat := by
  rw [BitVec.toNat_or, upperHalf_toNat, immUnsigned_toNat, show (65536 : Nat) = 2 ^ 16 by decide, ← Nat.shiftLeft_eq]
  exact (Nat.shiftLeft_add_eq_or_of_lt lo.isLt hi.toNat).symm

/-- Settles O50: WRDLD leaves the upper half over zeros in the register; ORI fills the zeros in ACC32, and its frame keeps the
register. -/
theorem constantIdiom : Obligations.ConstantIdiom := by
  intro s t n hi lo hload
  obtain ⟨hpc, -, htaken⟩ := (toDest_completes s (c := .r n) (upperHalf hi) CReg.noConfusion).of_next hload
  have hreg : t.core[n] = upperHalf hi := htaken
  have hori : Completes .toAcc32 t (exec (.ori (.r n) lo) t) fun u => u.acc32 = t.core[n] ||| immUnsigned lo :=
    toAcc32_completes rfl
  obtain ⟨u, hu, hupc, hframe, hacc⟩ := hori
  have hkept : u.core[n] = t.core[n] := hframe.core n List.not_mem_nil
  refine ⟨u, hu, ?_, ?_, ?_⟩
  · rw [hacc, hreg, upperHalf_or_immUnsigned_toNat]
  · rw [hkept, hreg, upperHalf_toNat]
  · rw [hupc, hpc]

/-! ### Delay memory (R285-R290, R293) -/

/-- Settles O45: each of the three ends in `toDest` of a delay word as S.31; they differ in the address. -/
theorem delayReads : Obligations.DelayReads := fun s _ y a hx =>
  ⟨toDest_completes_of_eq BitVec.toInt hx (dreadRel_toInt s a),
    toDest_completes_of_eq BitVec.toInt hx (dreadRel_toInt s (indexAddr (s.reg y))),
    toDest_completes_of_eq BitVec.toInt hx (dread_toInt s (indexAddr (s.reg y)))⟩

/-- Settles O46: each of the three ends in `toDelay`; they differ in the address. -/
theorem delayWrites : Obligations.DelayWrites := fun s x y a =>
  ⟨toDelay_completes s (s.rel a) (s.reg x),
    toDelay_completes s (s.rel (indexAddr (s.reg x))) (s.reg y),
    toDelay_completes s (indexAddr (s.reg x)) (s.reg y)⟩

/-- A store and a load round the signed value down to a multiple of 2^16. -/
theorem upperHalf_storedHalf_toInt (v : Word) : (upperHalf (storedHalf v)).toInt = v.toInt / 65536 * 65536 := by
  rw [upperHalf_toInt, storedHalf_toInt]

/-- Settles O47: RDDEL finds the word WRDEL has stored (`wrdel_dreadRel`); what is lost is a remainder modulo 2^16. -/
theorem delayRoundTrip : Obligations.DelayRoundTrip := by
  intro s t c d a hd hstore
  obtain ⟨u, hload, -, -, hu⟩ := toDest_completes t (t.dreadRel a) hd
  rw [wrdel_dreadRel hstore] at hu
  refine ⟨u, hload, ?_, ?_⟩
  · rw [hu, upperHalf_storedHalf_toNat]
  · rw [hu, upperHalf_storedHalf_toInt]
    omega

end Sys2Proof.Machine
end

section
/-! PROOFS of the family 44_logic: the seven logic operations bit by bit (O49). Each ends in `toAcc32`, whose frame is
`toAcc32_completes`; what is left is one bit of the value it puts in ACC32. -/

namespace Sys2Proof.Machine

/-! ### A zero-extended immediate, bit by bit (R313, R315, R317) -/

theorem or_immUnsigned_getLsbD (v : Word) (imm : Half) (j : Nat) :
    (v ||| immUnsigned imm).getLsbD j = (v.getLsbD j || (decide (j < 16) && imm.getLsbD j)) := by
  rw [BitVec.getLsbD_or, immUnsigned_getLsbD]

theorem and_immUnsigned_getLsbD (v : Word) (imm : Half) (j : Nat) :
    (v &&& immUnsigned imm).getLsbD j = (v.getLsbD j && (decide (j < 16) && imm.getLsbD j)) := by
  rw [BitVec.getLsbD_and, immUnsigned_getLsbD]

theorem xor_immUnsigned_getLsbD (v : Word) (imm : Half) (j : Nat) :
    (v ^^^ immUnsigned imm).getLsbD j = (v.getLsbD j != (decide (j < 16) && imm.getLsbD j)) := by
  rw [BitVec.getLsbD_xor, immUnsigned_getLsbD]

/-! ### The complement (R311) -/

/-- The bound on `j` is needed for INV only: above bit 31 a word and its complement both read as zeros. -/
theorem not_getLsbD_of_lt (v : Word) {j : Nat} (hj : j < 32) : (~~~ v).getLsbD j = !v.getLsbD j := by
  rw [BitVec.getLsbD_not, decide_eq_true hj, Bool.true_and]

/-- Settles O49: one bit of the value of each logic operation, under the frame of `toAcc32`. -/
theorem logicResults : Obligations.LogicResults := fun s c _ _ imm =>
  ⟨toAcc32_completes fun _ => not_getLsbD_of_lt (s.reg c),
    toAcc32_completes fun _ _ => BitVec.getLsbD_or,
    toAcc32_completes fun j _ => or_immUnsigned_getLsbD (s.reg c) imm j,
    toAcc32_completes fun _ _ => BitVec.getLsbD_and,
    toAcc32_completes fun j _ => and_immUnsigned_getLsbD (s.reg c) imm j,
    toAcc32_completes fun _ _ => BitVec.getLsbD_xor,
    toAcc32_completes fun j _ => xor_immUnsigned_getLsbD (s.reg c) imm j⟩

end Sys2Proof.Machine
end

section
/-! PROOFS of the family 45_jumps: a jump outside the program stops (O52), every instruction increases pc (O22), every iteration
ends (O23). -/

namespace Sys2Proof.Machine

/-! ### A jump outside the program (R330 d) -/

/-- The six jumps differ only in whether they are taken. -/
theorem exec_of_jumpOffset {i : Instr} {o : BitVec 12} (s : State) (h : jumpOffset i = some o) :
    ∃ taken, exec i s = jumpIf s taken o := by
  cases i with
  | jgez | jneg | jnz | jz | jzc | jmp =>
    obtain rfl := Option.some.inj h
    exact ⟨_, rfl⟩
  | _ => nomatch h

/-- Settles O52: `jumpIf` checks the range before it looks at the condition. -/
theorem jumpOutOfRange : Obligations.JumpOutOfRange := by
  intro s i o hi hbad
  obtain ⟨taken, hexec⟩ := exec_of_jumpOffset s hi
  exact hexec.trans (jumpIf_fault taken hbad)

/-! ### Where an instruction leaves pc (R200 f, R337) -/

/-- The outcome `o` of an instruction run in `s` is a fault, or a next state whose pc is the next address or one further on
inside the program. -/
inductive Proceeds (s : State) : Out → Prop
  | fault (f : Fault) : Proceeds s (.fault f)
  | next {t : State} (ahead : s.pc < t.pc) (inside : t.pc = s.pc + 1 ∨ t.pc < s.progLen) : Proceeds s (.next t)

theorem proceeds_done {s t : State} (h : t.pc = s.pc) : Proceeds s (done t) :=
  have hpc : t.advance.pc = s.pc + 1 := congrArg (· + 1) h
  .next (hpc ▸ Nat.lt_succ_self s.pc) (.inl hpc)

theorem proceeds_ite {s : State} {c : Prop} [Decidable c] {a b : Out} (ha : Proceeds s a) (hb : Proceeds s b) :
    Proceeds s (if c then a else b) := by
  split
  · exact ha
  · exact hb

theorem proceeds_toDest (s : State) (c : CReg) (v : Word) : Proceeds s (toDest s c v) := by
  cases c with
  | r n => exact proceeds_done rfl
  | acc32 => exact proceeds_done rfl
  | flags => exact .fault _

theorem proceeds_jumpIf (s : State) (taken : Bool) (o : BitVec 12) : Proceeds s (jumpIf s taken o) := by
  by_cases hok : s.jumpOk o
  · obtain ⟨t, ht, -⟩ := jumpIf_jumps taken (taken = true) Iff.rfl hok
    obtain ⟨n, rfl, hahead, hinside⟩ := jumpIf_next ht
    exact ht ▸ .next hahead (.inr hinside)
  · exact jumpIf_fault taken hok ▸ .fault _

theorem proceeds_cpyCs (s : State) (c : CReg) (n : Sfr) : Proceeds s (exec (.cpyCs c n) s) := by
  by_cases hc : c = .flags
  · exact exec_of_dest_flags (i := .cpyCs c n) (congrArg some hc) ▸ .fault _
  · cases hread : s.sfrRead n with
    | some v => exact exec_cpyCs_of_read c hread ▸ proceeds_toDest s c v
    | none => exact exec_cpyCs_of_unreadable hc hread ▸ .fault _

theorem proceeds_cpySc (s : State) (c : CReg) (n : Sfr) : Proceeds s (exec (.cpySc c n) s) := by
  obtain ⟨hwrite, hnone⟩ := sfrWrite_holds s n (s.reg c)
  cases hn : n.writable with
  | true =>
    obtain ⟨t, ht, -, hpc, -⟩ := hwrite hn
    exact exec_cpySc_of_write ht ▸ proceeds_done hpc
  | false => exact exec_cpySc_of_unwritable (hnone hn) ▸ .fault _

/-- Only a jump goes further than the next address, and no instruction is refused. -/
theorem exec_proceeds (i : Instr) (s : State) : Proceeds s (exec i s) := by
  cases i with
  | abs | addi | add | adds | addsi | sub | subs | sl | slr | sls | slsr | sr | srr | sra | srar | multrr | multri | neg
  | log2 | inv | or | ori | and | andi | xor | xori | pitch | interp
  | clracc64 | macrr | macri | macrd | macid | machrr | machri | machrd | machid | ldacc64u | ldacc64l
  | cpyMc | wrdel | wrdelx | wrdirx | apa | apb | apra | aprb | aprra | aprrb | apma | apmb | set => exact proceeds_done rfl
  | exp2 => exact proceeds_ite (proceeds_done rfl) (.fault _)
  | chr => exact proceeds_ite (.fault _) (proceeds_done rfl)
  | cpyCc x | cpyCm x | cpyCmx x | rdacc64u x | rdacc64l x | rddel x | rddelx x | rddirx x | sat64 x | wrdld x =>
    exact proceeds_toDest s x _
  | cpyCs c n => exact proceeds_cpyCs s c n
  | cpySc c n => exact proceeds_cpySc s c n
  | jgez | jneg | jnz | jz | jzc | jmp => exact proceeds_jumpIf s _ _

/-- Settles O22: inside the program both the next address and a jump's target are at most PROG_LEN, which no instruction
changes. -/
theorem pcIncreases : Obligations.PcIncreases := by
  intro i s t hexec
  have hlen : t.progLen = s.progLen := (exec_framed i s t hexec).outside.progLen
  have hproceeds : Proceeds s (.next t) := hexec ▸ exec_proceeds i s
  obtain _ | ⟨hahead, hinside⟩ := hproceeds
  exact ⟨hahead, fun _ => by omega⟩

/-! ### One step inside an iteration (R446, R448) -/

/-- What stays as it is from one step of an iteration to the next. -/
structure SameIteration (s t : State) : Prop where
  progLen : t.progLen = s.progLen
  dcnt : t.dcnt = s.dcnt
  sampleCnt : t.sampleCnt = s.sampleCnt
  iram : ∀ a, Memory.read t.iram a = Memory.read s.iram a

theorem SameIteration.refl (s : State) : SameIteration s s := ⟨rfl, rfl, rfl, fun _ => rfl⟩

theorem SameIteration.trans {s t u : State} (h : SameIteration s t) (h' : SameIteration t u) : SameIteration s u :=
  ⟨h'.progLen.trans h.progLen, h'.dcnt.trans h.dcnt, h'.sampleCnt.trans h.sampleCnt, fun a => (h'.iram a).trans (h.iram a)⟩

/-- The hardware drives none of it. -/
theorem SameOutside.sameIteration_drive {s t : State} (h : SameOutside s t) : SameIteration s t.drive :=
  ⟨h.progLen, h.dcnt, h.sampleCnt, h.iram⟩

theorem step_of_fetchDecode_ok {s : State} {i : Instr} (hin : s.pc < s.progLen) (h : fetchDecode s = .ok i) :
    step s = thenDrive (exec i s) := by
  rw [step, if_pos hin, h]

theorem step_of_fetchDecode_error {s : State} {f : Fault} (hin : s.pc < s.progLen) (h : fetchDecode s = .error f) :
    step s = .fault f := by
  rw [step, if_pos hin, h]

/-- Inside the program a step faults or moves pc on, to PROG_LEN at the furthest. -/
theorem step_inside {s : State} (hin : s.pc < s.progLen) :
    (∃ f, step s = .fault f) ∨ ∃ t, step s = .next t ∧ s.pc < t.pc ∧ t.pc ≤ t.progLen ∧ SameIteration s t := by
  cases hfetch : fetchDecode s with
  | error f => exact .inl ⟨f, step_of_fetchDecode_error hin hfetch⟩
  | ok i =>
    rw [step_of_fetchDecode_ok hin hfetch]
    have hproceeds := exec_proceeds i s
    cases hexec : exec i s with
    | fault f => exact .inl ⟨f, rfl⟩
    | refused r => nomatch hexec ▸ hproceeds
    | next t =>
      obtain ⟨hahead, hinside⟩ := pcIncreases i s t hexec
      exact .inr ⟨t.drive, rfl, hahead, hinside hin, (exec_framed i s t hexec).outside.sameIteration_drive⟩

/-! ### The steps of an iteration (R337) -/

/-- At most `n` steps from `s` end in a fault or at PROG_LEN. -/
def EndsWithin (n : Nat) (s : State) : Prop :=
  ∃ k, k ≤ n ∧ ((∃ f, Host.Core.run Sys2Proof.core k s = .fault f)
    ∨ ∃ t : State, Host.Core.run Sys2Proof.core k s = .next t ∧ t.pc = t.progLen ∧ SameIteration s t)

theorem EndsWithin.mono {m n : Nat} {s : State} (h : EndsWithin m s) (hmn : m ≤ n) : EndsWithin n s := by
  obtain ⟨k, hk, hend⟩ := h
  exact ⟨k, hk.trans hmn, hend⟩

theorem endsWithin_zero {s : State} (h : s.pc = s.progLen) : EndsWithin 0 s :=
  ⟨0, le_rfl, .inr ⟨s, rfl, h, .refl s⟩⟩

theorem endsWithin_of_fault {s : State} {f : Fault} (h : step s = .fault f) : EndsWithin 1 s :=
  ⟨1, le_rfl, .inl ⟨f, run_step_fault 0 h⟩⟩

theorem endsWithin_of_next {n : Nat} {s t : State} (h : step s = .next t) (hst : SameIteration s t) (ht : EndsWithin n t) :
    EndsWithin (n + 1) s := by
  obtain ⟨k, hk, hend⟩ := ht
  refine ⟨k + 1, Nat.succ_le_succ hk, ?_⟩
  rw [run_step_next k h]
  rcases hend with hfault | ⟨u, hu, hpc, htu⟩
  · exact .inl hfault
  · exact .inr ⟨u, hu, hpc, hst.trans htu⟩

/-- The distance of pc from PROG_LEN goes down with every step. -/
theorem endsWithin_distance (s : State) (h : s.pc ≤ s.progLen) : EndsWithin (s.progLen - s.pc) s := by
  rcases h.eq_or_lt with hend | hin
  · exact (endsWithin_zero hend).mono (Nat.zero_le _)
  · rcases step_inside hin with ⟨f, hf⟩ | ⟨t, ht, hahead, hinside, hst⟩
    · exact (endsWithin_of_fault hf).mono (by omega)
    · have hlen := hst.progLen
      exact (endsWithin_of_next ht hst (endsWithin_distance t hinside)).mono (by omega)
termination_by s.progLen - s.pc

/-- Settles O23: the iteration ends within the distance of pc from PROG_LEN. -/
theorem iterationEnds : Obligations.IterationEnds := by
  intro s h
  obtain ⟨k, hk, hfault | ⟨t, hrun, hpc, hst⟩⟩ := endsWithin_distance s h
  · exact ⟨k, hk, .inl hfault⟩
  · exact ⟨k, hk, .inr ⟨t, hrun, hpc, hst.progLen, hst.dcnt, hst.sampleCnt, hst.iram⟩⟩

end Sys2Proof.Machine
end

section
/-! PROOFS of the family 46_extended: the all-pass arithmetic (O55) and its two halves (O56, O57), CHR and PITCH (O58), SET
(O59), INTERP (O60). The frames are those of `allPassA`, `allPassBDelay`, `setMreg`, `setUser` and `toAcc32`; what is left is
the values. -/

namespace Sys2Proof.Machine

/-! ### The all-pass arithmetic (R351) -/

theorem apmac_toInt {p : Params} (h : p.apmacDefault = true) (c a b : Word) :
    (apmac p c a b).toInt = clamp32 (c.toInt + a.toInt * b.toInt / 2147483648) := by
  rw [apmac, if_pos h, sat32_toInt]

theorem apmac_of_open {p : Params} (h : p.apmacDefault = false) (c a b : Word) :
    apmac p c a b = Config.apmacOpen c a b := if_neg (Bool.eq_false_iff.mp h)

/-- APNEG's default is the saturating negation of NEG (R242). -/
theorem apneg_of_default {p : Params} (h : p.apnegDefault = true) (k : Word) : apneg p k = negSat k := if_pos h

theorem apneg_of_open {p : Params} (h : p.apnegDefault = false) (k : Word) : apneg p k = Config.apnegOpen k :=
  if_neg (Bool.eq_false_iff.mp h)

/-- Settles O55: each function, where its default is taken and where it is not. -/
theorem allPassArithmetic : Obligations.AllPassArithmetic := by
  intro p c a b k
  refine ⟨fun h => apmac_toInt h c a b, fun h => apmac_of_open h c a b, fun h => ?_, fun h => apneg_of_open h k⟩
  rw [apneg_of_default h, negSat_toInt]

/-! ### The A halves (R352, R354, R356, R358) -/

/-- The tail that ACC32's multiply-add uses is the one that R15 holds afterwards. -/
theorem allPassA_completes_with_tail (s : State) (d k : Word) :
    Completes { acc32 := true, core := [15] } s (allPassA s d k) fun t =>
      t.reg .param0 = d ∧ t.acc32 = apmac s.par s.acc32 (t.reg .param0) k := by
  refine (allPassA_completes s d k).mono fun t ⟨htail, hacc⟩ => ⟨htail, ?_⟩
  rw [hacc, htail]

/-- The A half whose tail is the delay word at a relative address, as S.31 (R84). -/
theorem allPassA_dreadRel_completes (s : State) (a : DAddr) (k : Word) :
    Completes { acc32 := true, core := [15] } s (allPassA s (s.dreadRel a) k) fun t =>
      (t.reg .param0).toInt = (s.delayAt (s.rel a)).toInt * 65536
        ∧ t.acc32 = apmac s.par s.acc32 (t.reg .param0) k := by
  refine (allPassA_completes_with_tail s (s.dreadRel a) k).mono fun t ⟨htail, hacc⟩ => ⟨?_, hacc⟩
  rw [htail, dreadRel_toInt]

/-- Settles O56: three A halves read their tail from delay memory, APMA reads it from an MREG; each brings its coefficient. -/
theorem allPassFirstHalves : Obligations.AllPassFirstHalves := fun s c x y k a m =>
  ⟨allPassA_dreadRel_completes s a (coefficient k),
    allPassA_dreadRel_completes s a (apneg s.par (s.reg c)),
    allPassA_dreadRel_completes s (indexAddr (s.reg y)) (apneg s.par (s.reg x)),
    allPassA_completes_with_tail s s.mreg[m] (apneg s.par (s.reg c))⟩

/-! ### The B halves (R353, R355, R357, R359) -/

/-- APMB's head is an MREG, which takes all of the old ACC32. -/
theorem apmb_completes (s : State) (c : CReg) (m : Fin 128) :
    Completes { acc32 := true, mreg := [m] } s (exec (.apmb c m) s) fun t =>
      t.mreg[m] = s.acc32 ∧ t.acc32 = apmac s.par (s.reg .param0) s.acc32 (s.reg c) :=
  ⟨_, rfl, rfl, framed_apmb s c m _ rfl, get_set_same s.mreg m s.acc32, rfl⟩

/-- Settles O57: three B halves store their head in delay memory, APMB stores it in an MREG; each brings its coefficient. -/
theorem allPassSecondHalves : Obligations.AllPassSecondHalves := fun s c x y k a m =>
  ⟨allPassBDelay_completes s (s.rel a) (coefficient k),
    allPassBDelay_completes s (s.rel a) (s.reg c),
    allPassBDelay_completes s (s.rel (indexAddr (s.reg y))) (s.reg x),
    apmb_completes s c m⟩

/-! ### CHR and PITCH (R363, R364) -/

/-- Bit 31 is set from 2^31 on. -/
theorem getLsbD_31_iff_le_toNat (v : Word) : v.getLsbD 31 = true ↔ 2147483648 ≤ v.toNat := by
  rw [getLsbD_31_iff_neg, BitVec.toInt_neg_iff]
  omega

theorem exec_chr_of_param_lt {s : State} (neg : Bool) (lfo : Fin 4) (w : Wave) (a : DAddr)
    (h : (s.reg .param0).toNat < 2147483648) :
    exec (.chr neg lfo w a) s
      = toAcc32 s (Config.chrFn neg lfo w a (s.reg .param0) s.dcnt s.delay (lfoOutput s lfo w)) :=
  if_neg fun hbit => not_le.mpr h ((getLsbD_31_iff_le_toNat _).mp hbit)

theorem exec_chr_of_param_ge {s : State} (neg : Bool) (lfo : Fin 4) (w : Wave) (a : DAddr)
    (h : 2147483648 ≤ (s.reg .param0).toNat) : exec (.chr neg lfo w a) s = .fault .chrParamBad :=
  if_pos ((getLsbD_31_iff_le_toNat _).mpr h)

/-- Settles O58: CHR has two paths, and bit 31 of R15 chooses; PITCH has one. -/
theorem chorusAndPitch : Obligations.ChorusAndPitch := by
  intro s neg lfo w xfade l ramp a
  refine ⟨fun h => ?_, exec_chr_of_param_ge neg lfo w a, toAcc32_completes rfl⟩
  rw [exec_chr_of_param_lt neg lfo w a h]
  cases w with
  | sin => exact toAcc32_completes rfl
  | cos => exact toAcc32_completes rfl

/-! ### SET (R365) -/

/-- A bit of a word in numbers. -/
theorem getLsbD_iff_div_mod (v : Word) (n : Nat) : v.getLsbD n = true ↔ v.toNat / 2 ^ n % 2 = 1 := by
  rw [BitVec.getLsbD, Nat.testBit_eq_decide_div_mod_eq, decide_eq_true_iff]

theorem set_completes (s : State) (c : CReg) (u : Fin 2) (n : Fin 32) :
    Completes { user := [u] } s (exec (.set c u n) s) fun t => t.user[u] = (s.reg c).getLsbD n.val :=
  ⟨_, rfl, rfl, changes_user s u _, get_set_same s.user u _⟩

/-- Settles O59: the user bit takes the named bit of the register, under the frame of `setUser`. -/
theorem setResult : Obligations.SetResult := by
  intro s c u n
  refine (set_completes s c u n).mono fun t hbit => ?_
  rw [hbit]
  exact getLsbD_iff_div_mod (s.reg c) n.val

/-! ### INTERP (R366) -/

theorem interpFn_toInt {p : Params} (h : p.interpDefault = true) (s0 s1 k : Word) :
    (interpFn p s0 s1 k).toInt = clamp32 (s0.toInt + (s1.toInt - s0.toInt) * k.toInt / 2147483648) := by
  rw [interpFn, if_pos h, sat32_toInt]

theorem interpFn_of_open {p : Params} (h : p.interpDefault = false) (s0 s1 k : Word) :
    interpFn p s0 s1 k = Config.interpOpen s0 s1 k := if_neg (Bool.eq_false_iff.mp h)

/-- The default interpolation between two delay words, in the numbers of the words and of the register. -/
theorem interpFn_dread_toInt {p : Params} (h : p.interpDefault = true) (s : State) (pa pb : DAddr) (v : Word) :
    (interpFn p (s.dread pa) (s.dread pb) (interpCoef v)).toInt = clamp32
      ((s.delayAt pa).toInt * 65536 + ((s.delayAt pb).toInt * 65536 - (s.delayAt pa).toInt * 65536)
        * ((v.toNat % 65536 : Nat) : Int) * 32768 / 2147483648) := by
  rw [interpFn_toInt h, dread_toInt, dread_toInt, interpCoef_toInt, Nat.cast_mul, Nat.cast_ofNat,
    ← mul_assoc]

/-- Settles O60: the value with and without the default formula, under the frame of `toAcc32`. -/
theorem interpResult : Obligations.InterpResult := fun s c _ =>
  toAcc32_completes ⟨fun h => interpFn_dread_toInt h s _ _ (s.reg c), fun h => interpFn_of_open h _ _ _⟩

end Sys2Proof.Machine
end

section
/-! PROOFS of the family 60_exceptions: when an instruction stops (O21), a word that does not decode stops the step (O9). -/

namespace Sys2Proof.Machine

/-! ### Ends of a meaning that do not stop (R35, R45, R46) -/

theorem toDest_next {s : State} {c : CReg} (v : Word) (hc : c ≠ .flags) : ∃ t, toDest s c v = .next t := by
  obtain ⟨t, ht, -⟩ := toDest_completes s v hc
  exact ⟨t, ht⟩

theorem cpyCs_next (s : State) {c : CReg} {n : Sfr} (hc : c ≠ .flags) (hn : n.readable = true) :
    ∃ t, exec (.cpyCs c n) s = .next t := by
  obtain ⟨v, hv, -⟩ := (sfrRead_shows s n).1 hn
  rw [exec_cpyCs_of_read c hv]
  exact toDest_next v hc

theorem cpySc_next (s : State) (c : CReg) {n : Sfr} (hn : n.writable = true) : ∃ t, exec (.cpySc c n) s = .next t := by
  obtain ⟨t, ht, -⟩ := (sfrWrite_holds s n (s.reg c)).1 hn
  exact ⟨t.advance, exec_cpySc_of_write ht⟩

/-! ### The three stops (R402) -/

/-- A jump goes on exactly where its target is in range, taken or not (D4). -/
theorem jump_next_or_fault {i : Instr} {o : BitVec 12} (s : State) (hi : jumpOffset i = some o) :
    (∃ t, exec i s = .next t) ∨ (¬ s.jumpOk o ∧ exec i s = .fault .jumpOutOfRange) := by
  obtain ⟨taken, hexec⟩ := exec_of_jumpOffset s hi
  rw [hexec]
  by_cases hok : s.jumpOk o
  · obtain ⟨t, ht, -⟩ := jumpIf_jumps taken (taken = true) Iff.rfl hok
    exact .inl ⟨t, ht⟩
  · exact .inr ⟨hok, jumpIf_fault taken hok⟩

/-- Bit 31 of the operand decides (D19). -/
theorem exp2_next_or_fault (s : State) (c : CReg) :
    (∃ t, exec (.exp2 c) s = .next t)
      ∨ ((s.reg c).getLsbD 31 = false ∧ exec (.exp2 c) s = .fault .exp2NonNegative) := by
  cases hbit : (s.reg c).getLsbD 31 with
  | true => exact .inl ⟨_, exec_exp2_of_neg ((getLsbD_31_iff_neg _).mp hbit)⟩
  | false =>
    have hnonneg : 0 ≤ (s.reg c).toInt :=
      not_lt.mp fun hneg => Bool.eq_false_iff.mp hbit ((getLsbD_31_iff_neg _).mpr hneg)
    exact .inr ⟨rfl, exec_exp2_of_nonneg hnonneg⟩

/-- Bit 31 of R15 decides (D21). -/
theorem chr_next_or_fault (s : State) (neg : Bool) (lfo : Fin 4) (w : Wave) (a : DAddr) :
    (∃ t, exec (.chr neg lfo w a) s = .next t)
      ∨ ((s.reg .param0).getLsbD 31 = true ∧ exec (.chr neg lfo w a) s = .fault .chrParamBad) := by
  rcases lt_or_ge (s.reg .param0).toNat 2147483648 with hlt | hge
  · exact .inl ⟨_, exec_chr_of_param_lt neg lfo w a hlt⟩
  · exact .inr ⟨(getLsbD_31_iff_le_toNat _).mpr hge, exec_chr_of_param_ge neg lfo w a hge⟩

/-- Settles O21: a well-formed instruction ends in one of the operations that do not stop, or is a jump, EXP2 or CHR. -/
theorem whenAnInstructionStops : Obligations.WhenAnInstructionStops := by
  intro i s hwf
  obtain ⟨hdest, hsfr⟩ := wellFormed_iff.mp hwf
  cases i with
  | abs | addi | add | adds | addsi | sub | subs | sl | slr | sls | slsr | sr | srr | sra | srar | multrr | multri | neg
  | log2 | inv | or | ori | and | andi | xor | xori | pitch | interp
  | clracc64 | macrr | macri | macrd | macid | machrr | machri | machrd | machid | ldacc64u | ldacc64l
  | cpyMc | wrdel | wrdelx | wrdirx | apa | apb | apra | aprb | aprra | aprrb | apma | apmb | set => exact .inl ⟨_, rfl⟩
  | cpyCc x | cpyCm x | cpyCmx x | rdacc64u x | rdacc64l x | rddel x | rddelx x | rddirx x | sat64 x | wrdld x =>
    exact .inl (toDest_next _ fun hx => hdest (congrArg some hx))
  | cpyCs c n => exact .inl (cpyCs_next s (fun hc => hdest (congrArg some hc)) hsfr)
  | cpySc c n => exact .inl (cpySc_next s c hsfr)
  | jgez | jneg | jnz | jz | jzc | jmp =>
    exact (jump_next_or_fault s rfl).imp_right fun hstop => .inl ⟨_, rfl, hstop⟩
  | exp2 c => exact (exp2_next_or_fault s c).imp_right fun hstop => .inr (.inl ⟨c, rfl, hstop⟩)
  | chr neg lfo w a =>
    exact (chr_next_or_fault s neg lfo w a).imp_right fun hstop => .inr (.inr ⟨neg, lfo, w, a, rfl, hstop⟩)

/-! ### A word that does not decode (R402, R403) -/

theorem fetchDecode_of_decode_error {s : State} {e : Reject} (h : decode (Memory.read s.iram s.pc) = .error e) :
    fetchDecode s = .error (rejectFault e) := by
  rw [fetchDecode, State.fetch, h]

/-- Settles O9: inside the program a step is what `fetchDecode` answers, and that is the fault of the reason. -/
theorem stepRejectsUndecodable : Obligations.StepRejectsUndecodable := fun _ _ hin hreject =>
  step_of_fetchDecode_error hin (fetchDecode_of_decode_error hreject)

end Sys2Proof.Machine
end

section
/-! PROOFS of the family 70_reset_and_hazards: the invariant at reset (O17) and over every step (O18). An instruction leaves the
instruction RAM's list as it is and stores at most one word in the delay RAM, a tick leaves both alone, and a program change
clears the one and loads the other. -/

namespace Sys2Proof.Machine

/-- Settles O17: nothing is stored at reset and no program is loaded. -/
theorem resetInv : Obligations.ResetInv := ⟨rfl, rfl, Nat.le_refl 0, Nat.zero_le 1024⟩

/-! ### What an instruction does to the lists behind the memories (R84, R97) -/

/-- From `s` to `t` the instruction RAM is the same list, and the delay RAM is the same list or that list after one store. -/
structure StoresAtMostOne (s t : State) : Prop where
  iram : t.iram = s.iram
  delay : t.delay = s.delay ∨ ∃ (pa : DAddr) (v : Half), t.delay = Memory.write s.delay pa.toNat v

theorem StoresAtMostOne.of_eq {s t : State} (hiram : t.iram = s.iram) (hdelay : t.delay = s.delay) :
    StoresAtMostOne s t := ⟨hiram, .inl hdelay⟩

/-- A delay address has 15 bits, so every store is inside the 32768 words. -/
theorem StoresAtMostOne.delayWf {s t : State} (h : StoresAtMostOne s t) (hwf : Memory.wf 32768 s.delay = true) :
    Memory.wf 32768 t.delay = true := by
  rcases h.delay with hsame | ⟨pa, v, hstore⟩
  · exact hsame ▸ hwf
  · exact hstore ▸ Memory.wf_write v pa.isLt hwf

/-- If the outcome is a next state, at most one word was stored on the way to it. -/
def StoringOnce (s : State) (o : Out) : Prop := ∀ t, o = .next t → StoresAtMostOne s t

theorem storingOnce_next {s t : State} (h : StoresAtMostOne s t) : StoringOnce s (.next t) := fun _ ht =>
  Host.Outcome.next.inj ht ▸ h

theorem storingOnce_fault (s : State) (f : Fault) : StoringOnce s (.fault f) := nofun

theorem storingOnce_done {s t : State} (hiram : t.iram = s.iram) (hdelay : t.delay = s.delay) : StoringOnce s (done t) :=
  storingOnce_next (.of_eq (t := t.advance) hiram hdelay)

theorem storingOnce_ite {s : State} {c : Prop} [Decidable c] {a b : Out} (ha : StoringOnce s a) (hb : StoringOnce s b) :
    StoringOnce s (if c then a else b) := by
  split
  · exact ha
  · exact hb

theorem storingOnce_toDest (s : State) (c : CReg) (v : Word) : StoringOnce s (toDest s c v) := by
  cases c with
  | r n => exact storingOnce_done rfl rfl
  | acc32 => exact storingOnce_done rfl rfl
  | flags => exact storingOnce_fault s _

theorem storingOnce_toDelay (s : State) (pa : DAddr) (v : Word) : StoringOnce s (toDelay s pa v) :=
  storingOnce_next ⟨rfl, .inr ⟨pa, storedHalf v, rfl⟩⟩

theorem storingOnce_allPassBDelay (s : State) (pa : DAddr) (k : Word) : StoringOnce s (allPassBDelay s pa k) :=
  storingOnce_next ⟨rfl, .inr ⟨pa, storedHalf s.acc32, rfl⟩⟩

theorem storingOnce_jumpIf (s : State) (taken : Bool) (o : BitVec 12) : StoringOnce s (jumpIf s taken o) := by
  intro t ht
  obtain ⟨n, rfl, -, -⟩ := jumpIf_next ht
  exact .of_eq rfl rfl

theorem storingOnce_cpyCs (s : State) (c : CReg) (n : Sfr) : StoringOnce s (exec (.cpyCs c n) s) := by
  by_cases hc : c = .flags
  · exact exec_of_dest_flags (i := .cpyCs c n) (congrArg some hc) ▸ storingOnce_fault s _
  · cases hread : s.sfrRead n with
    | some v => exact exec_cpyCs_of_read c hread ▸ storingOnce_toDest s c v
    | none => exact exec_cpyCs_of_unreadable hc hread ▸ storingOnce_fault s _

/-- No SFR stands in a memory. -/
theorem sfrWrite_memories {s t : State} {n : Sfr} {v : Word} (h : s.sfrWrite n v = some t) :
    t.iram = s.iram ∧ t.delay = s.delay := by
  cases n with
  | out | potK | lfoF | rampF | maxTempo =>
    obtain rfl := Option.some.inj h
    exact ⟨rfl, rfl⟩
  | _ => nomatch h

theorem storingOnce_cpySc (s : State) (c : CReg) (n : Sfr) : StoringOnce s (exec (.cpySc c n) s) := by
  cases hwrite : s.sfrWrite n (s.reg c) with
  | some t =>
    obtain ⟨hiram, hdelay⟩ := sfrWrite_memories hwrite
    exact exec_cpySc_of_write hwrite ▸ storingOnce_done hiram hdelay
  | none => exact exec_cpySc_of_unwritable hwrite ▸ storingOnce_fault s _

/-- Only a delay write or a B half with a delay word stores, and each stores one word. -/
theorem exec_storingOnce (i : Instr) (s : State) : StoringOnce s (exec i s) := by
  cases i with
  | abs | addi | add | adds | addsi | sub | subs | sl | slr | sls | slsr | sr | srr | sra | srar | multrr | multri | neg
  | log2 | inv | or | ori | and | andi | xor | xori | pitch | interp
  | clracc64 | macrr | macri | macrd | macid | machrr | machri | machrd | machid | ldacc64u | ldacc64l
  | cpyMc | apa | apra | aprra | apma | apmb | set => exact storingOnce_done rfl rfl
  | wrdel | wrdelx | wrdirx => exact storingOnce_toDelay s _ _
  | apb | aprb | aprrb => exact storingOnce_allPassBDelay s _ _
  | exp2 => exact storingOnce_ite (storingOnce_done rfl rfl) (storingOnce_fault s _)
  | chr => exact storingOnce_ite (storingOnce_fault s _) (storingOnce_done rfl rfl)
  | cpyCc x | cpyCm x | cpyCmx x | rdacc64u x | rdacc64l x | rddel x | rddelx x | rddirx x | sat64 x | wrdld x =>
    exact storingOnce_toDest s x _
  | cpyCs c n => exact storingOnce_cpyCs s c n
  | cpySc c n => exact storingOnce_cpySc s c n
  | jgez | jneg | jnz | jz | jzc | jmp => exact storingOnce_jumpIf s _ _

/-! ### The invariant, by what a step can be (R446, R449) -/

/-- None of what the invariant speaks of is driven by the hardware. -/
theorem State.Inv.drive {s : State} (h : s.Inv) : s.drive.Inv := ⟨h.delayWf, h.iramWf, h.pcLe, h.lenLe⟩

theorem State.Inv.driveInputs {s : State} (h : s.Inv) : s.driveInputs.Inv := ⟨h.delayWf, h.iramWf, h.pcLe, h.lenLe⟩

/-- An instruction inside the program keeps the invariant. -/
theorem State.Inv.exec {s t : State} {i : Instr} (h : s.Inv) (hin : s.pc < s.progLen) (hexec : exec i s = .next t) :
    t.Inv := by
  have hstores : StoresAtMostOne s t := exec_storingOnce i s t hexec
  have hlen : t.progLen = s.progLen := (exec_framed i s t hexec).outside.progLen
  obtain ⟨-, hpc⟩ := pcIncreases i s t hexec
  exact ⟨hstores.delayWf h.delayWf, hstores.iram ▸ h.iramWf, hpc hin, hlen ▸ h.lenLe⟩

theorem State.Inv.tick {s : State} (h : s.Inv) : s.tick.Inv := ⟨h.delayWf, h.iramWf, Nat.zero_le _, h.lenLe⟩

/-- A program the machine can hold has 1 to 1024 instructions, and no header map names a register twice. -/
theorem program_wf_iff (p : Program) : p.wf = true ↔ (1 ≤ p.text.length ∧ p.text.length ≤ 1024)
    ∧ (p.header.creg.map Prod.fst).Nodup ∧ (p.header.mreg.map Prod.fst).Nodup ∧ (p.header.sreg.map Prod.fst).Nodup := by
  simp only [Program.wf, Bool.and_eq_true, decide_eq_true_eq, and_assoc]

/-- A program the machine can hold fits the instruction RAM, whose other words stay. -/
theorem State.Inv.programChange {s : State} {p : Program} (h : s.Inv) (hp : p.wf = true) : (s.programChange p).Inv := by
  obtain ⟨⟨-, hfits⟩, -⟩ := (program_wf_iff p).mp hp
  obtain ⟨hiram, hlen, hdelay, -, -, -, -, -, hpc, -⟩ := presetSfrs_other p.header.sreg (s.changed p)
  have hload : Memory.wf 1024 (Memory.load s.iram 0 p.text) = true :=
    Memory.wf_load ((Nat.zero_add _).trans_le hfits) h.iramWf
  exact ⟨hdelay ▸ rfl, hiram ▸ hload, hpc ▸ Nat.zero_le _, hlen ▸ hfits⟩

/-- Settles O18: an instruction, a load and a tick each keep the invariant, and so does the drive after it. -/
theorem stepKeepsInv : Obligations.StepKeepsInv := by
  intro s t hinv hstep
  rcases step_next hstep with ⟨i, u, hin, -, hexec, rfl⟩ | ⟨-, p, -, hp, rfl⟩ | ⟨-, -, -, rfl⟩
  · exact (hinv.exec hin hexec).drive
  · exact (hinv.programChange hp).driveInputs
  · exact hinv.tick.drive

end Sys2Proof.Machine
end

section
/-! PROOFS of the family 70_reset_and_hazards: a step inside the program (O8), the drive (O10), the sample tick (O11) and `k`
ticks in a row (O12). -/

namespace Sys2Proof.Machine

/-! ### A step inside the program, and the drive after it (R449, R42, R45) -/

/-- Settles O8: `step` runs what `fetchDecode` answers, and `thenDrive` drives the next state. -/
theorem stepRunsDecoded : Obligations.StepRunsDecoded := by
  intro s i hin hdecode
  rw [step_of_fetchDecode_ok hin (fetchDecode_ok.mpr hdecode)]
  cases exec i s <;> rfl

/-- TAPTEMPO keeps its value exactly where the unit has measured nothing (R424). -/
theorem drive_tapTempo_cases (s : State) :
    s.drive.tapTempo = s.tapTempo ∨ some s.drive.tapTempo = Config.tapMeasured s.drive.drawIx := by
  rw [State.drive_tapTempo, State.drive_drawIx]
  cases Config.tapMeasured (s.drawIx + 1) with
  | none => exact .inl rfl
  | some v => exact .inr rfl

/-- Settles O10: the fields of `drive`, of which TAPTEMPO alone has two cases. -/
theorem driveKeepsTheRest : Obligations.DriveKeepsTheRest := fun s =>
  ⟨rfl, rfl, rfl, rfl, rfl, rfl, rfl, rfl, rfl, rfl, rfl, rfl, rfl, rfl, rfl, rfl, rfl, rfl, rfl, rfl,
    drive_tapTempo_cases s, rfl, rfl⟩

/-! ### The two counters in numbers (R445) -/

theorem dcnt_sub_toNat (d : DAddr) (k : Nat) :
    ((d - BitVec.ofNat 15 k).toNat : Int) = ((d.toNat : Int) - k) % 32768 := by
  have hd := d.isLt
  rw [BitVec.toNat_sub, BitVec.toNat_ofNat]
  omega

theorem sampleCnt_add_toNat (c : Word) (k : Nat) : (c + BitVec.ofNat 32 k).toNat = (c.toNat + k) % 4294967296 := by
  rw [BitVec.toNat_add, BitVec.toNat_ofNat, Nat.add_mod_mod]

/-! ### The sample tick (R445, R446, R447) -/

theorem boundary_tick {s : State} (hp : s.pending = none) (hl : s.progLen ≠ 0) : boundary s = .next s.tick.drive := by
  simp only [boundary, hp, hl, if_false]

theorem periodOutput_of_written {s : State} {k : Fin 4} (h : s.outWritten[k] = true) : s.periodOutput k = s.out[k] :=
  if_pos h

/-- The last value an iteration has written to OUTk is what DAC channel `k` outputs (D29). -/
theorem tick_dac_of_written {s : State} {k : Fin 4} (h : s.outWritten[k] = true) : s.tick.dac[k] = some s.out[k] := by
  rw [← periodOutput_of_written h]
  exact Vector.getElem_ofFn k.isLt

theorem tick_outWritten_get (s : State) (k : Fin 4) : s.tick.outWritten[k] = false := by simp

/-- Settles O11: the step is the boundary's tick, and the drive after it changes none of what is named. -/
theorem sampleTick : Obligations.SampleTick := by
  intro s hend hlen hpending
  have hstep : step s = .next s.tick.drive := (step_at_end hend).trans (boundary_tick hpending hlen)
  exact ⟨s.tick.drive, hstep, dcnt_sub_toNat s.dcnt 1, sampleCnt_add_toNat s.sampleCnt 1, rfl, rfl, rfl, rfl, rfl, rfl, rfl,
    fun _ => rfl, fun _ => rfl, rfl, rfl, fun _ => tick_dac_of_written, tick_outWritten_get s⟩

/-! ### Ticks in a row (R445) -/

/-- What one tick keeps, `k` ticks keep. -/
theorem ticks_keep {α : Type} (f : State → α) (h : ∀ s : State, f s.tick = f s) (s : State) (k : Nat) :
    f (State.tick^[k] s) = f s := by
  induction k with
  | zero => rfl
  | succ k ih => rw [Function.iterate_succ_apply', h, ih]

theorem ticks_sampleCnt (s : State) (k : Nat) : (State.tick^[k] s).sampleCnt = s.sampleCnt + BitVec.ofNat 32 k := by
  induction k with
  | zero => exact (BitVec.add_zero s.sampleCnt).symm
  | succ k ih =>
    rw [Function.iterate_succ_apply', State.tick_sampleCnt, ih, BitVec.ofNat_add]
    exact BitVec.add_assoc s.sampleCnt (BitVec.ofNat 32 k) 1

/-- Settles O12: each counter after `k` ticks in numbers, and the fields that a tick keeps. -/
theorem tickCounters : Obligations.TickCounters := by
  intro s k
  refine ⟨?_, ?_, ticks_keep State.core State.tick_core s k, ticks_keep State.acc32 State.tick_acc32 s k,
    ticks_keep State.acc64 State.tick_acc64 s k, ticks_keep State.mreg State.tick_mreg s k, ticks_delay s k,
    ticks_keep State.ctl State.tick_ctl s k, ticks_keep State.user State.tick_user s k⟩
  · rw [ticks_dcnt, dcnt_sub_toNat]
  · rw [ticks_sampleCnt, sampleCnt_add_toNat]

end Sys2Proof.Machine
end

section
/-! PROOFS of the family 70_reset_and_hazards: the program change (O14). Each header map is a fold over its entries; as no map
names a register twice, an entry is what its register holds when the fold is done. -/

namespace Sys2Proof.Machine

/-! ### One `.SREG` entry (R44, R47, R161) -/

theorem extractLsb_low_toNat (v : Word) (hi : Nat) : (v.extractLsb hi 0).toNat = v.toNat % 2 ^ (hi + 1) := by
  rw [BitVec.extractLsb_toNat, Nat.shiftRight_zero, Nat.sub_zero]

/-- The register of an entry holds the entry's value, a narrow one its low bits (log 33). -/
theorem presetSfr_holds (s : State) (r : Settable) (v : Word) : (presetSfr s (r, v)).holds r v := by
  cases r with
  | potK k => exact (congrArg BitVec.toNat (get_set_same s.ctl.potK k _)).trans (extractLsb_low_toNat v 4)
  | lfoF k => exact get_set_same s.ctl.lfoF k v
  | rampF k => exact get_set_same s.ctl.rampF k v
  | maxTempo | tapTempo => exact rfl
  | tapStkRld | tapDbRld | swDbRld | prgDbRld | oflRld => exact extractLsb_low_toNat v 15

/-- An entry leaves what every other register holds. Two entries reach into one vector only where they name registers of one
kind, and then at different places. -/
theorem presetSfr_holds_other (s : State) {q r : Settable} (h : q ≠ r) (u v : Word) :
    (presetSfr s (q, u)).holds r v ↔ s.holds r v := by
  cases q with
  | potK k =>
    cases r with
    | potK j =>
      have hne : j ≠ k := fun e => h (congrArg Settable.potK e.symm)
      simp only [State.holds, presetSfr, get_set_other _ _ hne]
    | _ => exact Iff.rfl
  | lfoF k =>
    cases r with
    | lfoF j =>
      have hne : j ≠ k := fun e => h (congrArg Settable.lfoF e.symm)
      simp only [State.holds, presetSfr, get_set_other _ _ hne]
    | _ => exact Iff.rfl
  | rampF k =>
    cases r with
    | rampF j =>
      have hne : j ≠ k := fun e => h (congrArg Settable.rampF e.symm)
      simp only [State.holds, presetSfr, get_set_other _ _ hne]
    | _ => exact Iff.rfl
  | _ => cases r <;> trivial

/-! ### All `.SREG` entries of a header -/

/-- A register that no entry names holds what it held. -/
theorem presetSfrs_holds_other (es : List (Settable × Word)) (s : State) {r : Settable} (v : Word)
    (h : ∀ e ∈ es, e.1 ≠ r) : (es.foldl presetSfr s).holds r v ↔ s.holds r v := by
  induction es generalizing s with
  | nil => exact Iff.rfl
  | cons d rest ih =>
    have hrest := ih (presetSfr s d) fun e he => h e (List.mem_cons_of_mem d he)
    exact hrest.trans (presetSfr_holds_other s (h d List.mem_cons_self) d.2 v)

/-- An entry whose register stands once in the header is what that register holds in the end. -/
theorem presetSfrs_holds_of_mem {es : List (Settable × Word)} (s : State) (hnodup : (es.map Prod.fst).Nodup)
    {e : Settable × Word} (he : e ∈ es) : (es.foldl presetSfr s).holds e.1 e.2 := by
  induction es generalizing s with
  | nil => nomatch he
  | cons d rest ih =>
    obtain ⟨hfresh, hrest⟩ := List.nodup_cons.mp hnodup
    rcases List.mem_cons.mp he with rfl | hmem
    · have hother : ∀ f ∈ rest, f.1 ≠ e.1 := fun f hf hfe => hfresh (List.mem_map.mpr ⟨f, hf, hfe⟩)
      exact (presetSfrs_holds_other rest (presetSfr s e) e.2 hother).mpr (presetSfr_holds s e.1 e.2)
    · exact ih (presetSfr s d) hrest hmem

/-! ### The program change (R440) -/

/-- The words of a program, loaded from address 0. -/
theorem read_load_zero (m : Memory 32) (ws : List Word) {a : Nat} (h : a < ws.length) :
    Memory.read (Memory.load m 0 ws) a = ws[a] := by
  rw [Memory.read_load, dif_pos ⟨Nat.zero_le a, h⟩]
  rfl

theorem changed_dac_get (s : State) (p : Program) (k : Fin 4) : (s.changed p).dac[k] = none := by simp

/-- Settles O14: the `.SREG` entries touch none of what `State.changed` sets but the settable registers, and each header map
gives its registers their entries. -/
theorem programChange : Obligations.ProgramChange := by
  intro s p hp
  obtain ⟨-, hcreg, hmreg, hsreg⟩ := (program_wf_iff p).mp hp
  obtain ⟨hiram, hlen, hdelay, hacc32, hcnt, hcore, hmregs, hacc64, hpc, hdcnt, hdac, hpending⟩ :=
    presetSfrs_other p.header.sreg (s.changed p)
  unfold State.programChange
  simp only [State.delayAt, hiram, hlen, hdelay, hacc32, hcnt, hcore, hmregs, hacc64, hpc, hdcnt, hdac, hpending]
  exact ⟨fun a h => read_load_zero s.iram p.text h, rfl, fun _ => rfl, rfl, rfl,
    foldl_set_mem p.header.creg _ hcreg, foldl_set_mem p.header.mreg _ hmreg,
    fun e he => presetSfrs_holds_of_mem (s.changed p) hsreg he,
    foldl_set_other p.header.creg _, foldl_set_other p.header.mreg _,
    rfl, rfl, rfl, changed_dac_get s p, rfl⟩

end Sys2Proof.Machine
end

section
/-! PROOFS of the families 41_math_mac and 45_jumps: multiply-accumulate with headroom (O34), the six jumps in range (O51). -/

namespace Sys2Proof.Machine

/-! ### Multiply-accumulate with headroom (R236-R239, R248) -/

/-- Settles O34: as O33, with the second operand in the numbers of its headroom form. -/
theorem multiplyAccumulateHeadroom : Obligations.MultiplyAccumulateHeadroom := fun s _ _ y imm k a =>
  ⟨accumulate_completes_of_toInt s rfl (headroom32_toInt (s.reg y)),
    accumulate_completes_of_toInt s rfl (headroom16_toInt s.par imm),
    accumulate_completes_of_toInt s rfl (headroom16_toInt s.par (s.delayAt (s.rel a))),
    accumulate_completes_of_toInt s (coefficient_toInt k) (headroom16_toInt s.par (s.delayAt (s.rel a)))⟩

/-! ### The six jumps (R331-R336, R338) -/

theorem toNat_eq_zero_iff (v : Word) : v.toNat = 0 ↔ v = 0 := BitVec.toNat_inj (y := 0#32)

/-- SGN is bit 31 (D23): the two bits differ exactly where one of the words is negative and the other is not. -/
theorem signs_differ_iff (v w : Word) :
    (v.getLsbD 31 != w.getLsbD 31) = true ↔ ¬ (v.toInt < 0 ↔ w.toInt < 0) := by
  rw [bne_iff_ne, ne_eq, Bool.eq_iff_iff, getLsbD_31_iff_neg, getLsbD_31_iff_neg]

/-- Settles O51: each jump is `jumpIf` of its own condition. -/
theorem jumpResults : Obligations.JumpResults := by
  intro s c o hok
  refine ⟨jumpIf_jumps _ _ decide_eq_true_iff hok, jumpIf_jumps _ _ decide_eq_true_iff hok,
    jumpIf_jumps _ _ ?_ hok, jumpIf_jumps _ _ ?_ hok, jumpIf_jumps _ _ (signs_differ_iff (s.reg c) s.acc32) hok,
    jumpIf_jumps _ _ (iff_of_true rfl trivial) hok⟩
  · rw [decide_eq_true_iff, Ne, Ne, toNat_eq_zero_iff]
  · rw [decide_eq_true_iff, toNat_eq_zero_iff]

end Sys2Proof.Machine
end
